-- ==== Sys2Proof/Word.lean ====
section
/-! DEFINITION. The widths of the block (00_scope R9, R12), and the one bit that selects the parser (10_state R21). -/

namespace Sys2Proof

/-- A received byte, always read as 0 to 255 (R9, R63). -/
abbrev Byte := BitVec 8

/-- An unsigned 16-bit value; `+` and `-` on it are the spec's `+₁₆` and `−₁₆` (R12). -/
abbrev Word := BitVec 16

/-- REPORT[0..5] (R36): each field is a signed 16-bit value in two's complement (R9), read by `BitVec.toInt`. -/
abbrev Report := Vector Word 6

/-- The protocol selection (R21): 0 is the Custom Protocol, 1 is IBUS. -/
inductive Proto
  | cp
  | ib
deriving DecidableEq, Repr, Inhabited

end Sys2Proof
end

