-- ==== Sys2Proof/Machine/Params.lean ====
section
/-! DEFINITION. The numeric parameters of 00_scope R8, each a named constant so that auditing one value changes it in
one place (log entry 9), the codes of the two state registers (10_state R25, R30), and the register-file shapes
whose sizes are parameters. -/

namespace Sys2Proof.Params

/-- CP_HEADER_A. -/
def cpHeaderA : Byte := 0x55
/-- CP_HEADER_B. -/
def cpHeaderB : Byte := 0xFC
/-- CP_PACKET_BYTES. -/
def cpPacketBytes : Nat := 18
/-- CP_PAYLOAD_BYTES (90_conflicts C1). -/
abbrev cpPayloadBytes : Nat := 14
/-- CP_SUM_BYTES (90_conflicts C3; 92 D10 names 12 as the alternative). -/
def cpSumBytes : Nat := 14
/-- CP_CHANNELS: the payload words that are channels, the first ones. -/
abbrev cpChannels : Nat := 6
/-- How many 16-bit words a payload has: the channels and the test channel, 7 (R2, R81). -/
abbrev cpWords : Nat := cpChannels + 1
/-- Both bytes of every payload word are payload bytes (R81, 90_conflicts C1). -/
theorem cpWords_lt (k : Fin cpWords) : 2 * k.val + 1 < cpPayloadBytes := by
  have := k.isLt
  simp only [cpWords, cpChannels, cpPayloadBytes] at *
  omega
/-- CP_TEST_SLOT: the payload word that is the test channel. -/
def cpTestSlot : Fin cpWords := 6
/-- CP_TESTCHANNEL: the channel it must equal. -/
def cpTestChannel : Fin cpWords := 2
/-- CP_CHANNEL_OFFSET (90_conflicts C4; 92 D11 names 0 as the alternative). -/
def cpChannelOffset : Word := 1000
/-- CP_CHANNELMAXIMUM. -/
def cpChannelMaximum : Word := 1022
/-- CP_CENTER. -/
def cpCenter : Word := 511
/-- IB_HDR_A. -/
def ibHdrA : Byte := 0x20
/-- IB_HDR_B. -/
def ibHdrB : Byte := 0x40
/-- IB_CHANNELS. -/
abbrev ibChannels : Nat := 14
/-- The IB frame's length in bytes, 2 + 2·14 + 2 = 32 (R10, R84). -/
def ibFrameBytes : Nat := 2 + 2 * ibChannels + 2
/-- IB_CSUM_INIT. -/
def ibCsumInit : Word := 0xFFFF
/-- IB_CENTER. -/
def ibCenter : Word := 1500
/-- FRAME_SLOTS: the width of the frame register. -/
abbrev frameSlots : Nat := 14
/-- An IB frame fills every slot of the frame register (R35, 92 D16). -/
theorem ibChannels_frame : ibChannels = frameSlots := rfl
/-- AXIS_MAP as AXIS_SRC (R170, R173): REPORT index j takes frame slot `axisSrc[j]`. -/
def axisSrc : Vector (Fin frameSlots) 6 := #v[3, 2, 0, 1, 4, 5]

/-! CST codes (R25). -/

def cpScanA : BitVec 3 := 0
def cpScanB : BitVec 3 := 1
def cpPayload : BitVec 3 := 2
def cpCsumHi : BitVec 3 := 3
def cpCsumLo : BitVec 3 := 4

/-! IST codes (R30). -/

def ibStHdrA : BitVec 3 := 0
def ibStHdrB : BitVec 3 := 1
def ibStIntLo : BitVec 3 := 2
def ibStIntHi : BitVec 3 := 3
def ibStCheckA : BitVec 3 := 4
def ibStCheckB : BitVec 3 := 5

end Sys2Proof.Params

namespace Sys2Proof

/-- The payload buffer CBUF[0..13] (R27). -/
abbrev Payload := Vector Byte Params.cpPayloadBytes

/-- The working slots ICH[0..13] (R33), and the channels of one IBUS frame (R85). -/
abbrev Channels := Vector Word Params.ibChannels

/-- The 16-bit slots of a ChannelFrame (R17), the shape of FR (R35). -/
abbrev Frame := Vector Word Params.frameSlots

end Sys2Proof
end

