-- ==== Sys2Proof/Syntax.lean ====
section
/-! DEFINITION. The transition rules as syntax: one constructor per row of opcode_table.json (30_encoding R89, 43 R170).
A row whose byte is fixed carries no operand; a row that takes any or any other byte carries the byte b of W, and the
two rows that take several state codes carry the code. -/

namespace Sys2Proof

inductive Instr
  /-- CP_SCAN_A_SYNC (R111). -/
  | cpScanASync
  /-- CP_SCAN_A_SKIP (R112). -/
  | cpScanASkip (b : Byte)
  /-- CP_SCAN_B_OK (R113). -/
  | cpScanBOk
  /-- CP_SCAN_B_RESYNC (R114). -/
  | cpScanBResync
  /-- CP_SCAN_B_FAIL (R115). -/
  | cpScanBFail (b : Byte)
  /-- CP_PAYLOAD_BYTE (R116). -/
  | cpPayloadByte (b : Byte)
  /-- CP_CSUM_HI (R117). -/
  | cpCsumHi (b : Byte)
  /-- CP_CSUM_LO (R118). -/
  | cpCsumLo (b : Byte)
  /-- CP_BAD_STATE (R121): the CST code 5, 6 or 7 and the byte. -/
  | cpBadState (st : BitVec 3) (b : Byte)
  /-- IB_HDR_A_SYNC (R141). -/
  | ibHdrASync
  /-- IB_HDR_A_SKIP (R142). -/
  | ibHdrASkip (b : Byte)
  /-- IB_HDR_B_OK (R143). -/
  | ibHdrBOk
  /-- IB_HDR_B_FAIL (R144). -/
  | ibHdrBFail (b : Byte)
  /-- IB_INT_LO (R145). -/
  | ibIntLo (b : Byte)
  /-- IB_INT_HI (R146). -/
  | ibIntHi (b : Byte)
  /-- IB_CHECK_A (R147). -/
  | ibCheckA (b : Byte)
  /-- IB_CHECK_B (R148). -/
  | ibCheckB (b : Byte)
  /-- IB_BAD_STATE (R149): the IST code 6 or 7 and the byte. -/
  | ibBadState (st : BitVec 3) (b : Byte)
  /-- MAP_CP (R171), selected inside `Emit` by PROTO = 0. -/
  | mapCp
  /-- MAP_IB (R172), selected inside `Emit` by PROTO = 1. -/
  | mapIb
deriving DecidableEq, Repr

end Sys2Proof
end

