-- ==== Sys2Proof/WellFormed.lean ====
section
/-! DEFINITION. Which terms of `Instr` some decode word stands for (30_encoding R89): an "any other" byte is none of the
bytes an earlier row of that state takes, and the code of a BAD_STATE row is an unused one. -/

namespace Sys2Proof

/-- The columns "ST" and "b" of R89's table, as a check. -/
def Instr.wf : Instr → Bool
  | .cpScanASkip b => b ≠ Params.cpHeaderA
  | .cpScanBFail b => b ≠ Params.cpHeaderB && b ≠ Params.cpHeaderA
  | .cpBadState st _ => st = 5 || st = 6 || st = 7
  | .ibHdrASkip b => b ≠ Params.ibHdrA
  | .ibHdrBFail b => b ≠ Params.ibHdrB
  | .ibBadState st _ => st = 6 || st = 7
  | .cpScanASync => true
  | .cpScanBOk => true
  | .cpScanBResync => true
  | .cpPayloadByte _ => true
  | .cpCsumHi _ => true
  | .cpCsumLo _ => true
  | .ibHdrASync => true
  | .ibHdrBOk => true
  | .ibIntLo _ => true
  | .ibIntHi _ => true
  | .ibCheckA _ => true
  | .ibCheckB _ => true
  | .mapCp => true
  | .mapIb => true

/-- Is it one of the two mapper rows, which no decode word selects (R89's last paragraph)? -/
def Instr.isMapper : Instr → Bool
  | .mapCp => true
  | .mapIb => true
  | .cpScanASync => false
  | .cpScanASkip _ => false
  | .cpScanBOk => false
  | .cpScanBResync => false
  | .cpScanBFail _ => false
  | .cpPayloadByte _ => false
  | .cpCsumHi _ => false
  | .cpCsumLo _ => false
  | .cpBadState _ _ => false
  | .ibHdrASync => false
  | .ibHdrASkip _ => false
  | .ibHdrBOk => false
  | .ibHdrBFail _ => false
  | .ibIntLo _ => false
  | .ibIntHi _ => false
  | .ibCheckA _ => false
  | .ibCheckB _ => false
  | .ibBadState _ _ => false

end Sys2Proof
end

