-- ==== Sys2Proof/Decode.lean ====
section
/-! DEFINITION. The decode word W and the transition map (30_encoding R87 to R90), the selector of the mapper rows
(43 R170), and the encoder, written from the table's match column. The BYTES of a word are the model's own layout
(log entry 7): the block fetches no instruction. -/

namespace Sys2Proof

/-- PROTO as its bit (R21). -/
def Proto.bit : Proto → BitVec 1
  | .cp => 0
  | .ib => 1

/-- The protocol a PROTO bit selects (R21). -/
def Proto.ofBit (b : BitVec 1) : Proto := if b = 0 then .cp else .ib

/-- `W = PROTO ‖ ST ‖ b` (R88). -/
def mkW (p : Proto) (st : BitVec 3) (b : Byte) : BitVec 12 := p.bit ++ st ++ b

/-- W[11], PROTO (R88). -/
def wProto (w : BitVec 12) : Proto := Proto.ofBit (w.extractLsb' 11 1)

/-- W[10:8], ST (R88). -/
def wSt (w : BitVec 12) : BitVec 3 := w.extractLsb' 8 3

/-- W[7:0], the accepted byte (R88). -/
def wByte (w : BitVec 12) : Byte := w.extractLsb' 0 8

/-- Rows 1 to 9 of R89: the Custom Protocol. -/
def decodeCp (st : BitVec 3) (b : Byte) : Instr :=
  if st = Params.cpScanA then
    if b = Params.cpHeaderA then .cpScanASync else .cpScanASkip b
  else if st = Params.cpScanB then
    if b = Params.cpHeaderB then .cpScanBOk
    else if b = Params.cpHeaderA then .cpScanBResync
    else .cpScanBFail b
  else if st = Params.cpPayload then .cpPayloadByte b
  else if st = Params.cpCsumHi then .cpCsumHi b
  else if st = Params.cpCsumLo then .cpCsumLo b
  else .cpBadState st b

/-- Rows 10 to 18 of R89: IBUS. -/
def decodeIb (st : BitVec 3) (b : Byte) : Instr :=
  if st = Params.ibStHdrA then
    if b = Params.ibHdrA then .ibHdrASync else .ibHdrASkip b
  else if st = Params.ibStHdrB then
    if b = Params.ibHdrB then .ibHdrBOk else .ibHdrBFail b
  else if st = Params.ibStIntLo then .ibIntLo b
  else if st = Params.ibStIntHi then .ibIntHi b
  else if st = Params.ibStCheckA then .ibCheckA b
  else if st = Params.ibStCheckB then .ibCheckB b
  else .ibBadState st b

/-- The row of R89 that W selects: exactly one for every W, so this decoder is total. -/
def decodeW (w : BitVec 12) : Instr :=
  match wProto w with
  | .cp => decodeCp (wSt w) (wByte w)
  | .ib => decodeIb (wSt w) (wByte w)

/-- The row of the mapper that a PROTO bit selects (R170; the table's mask is 0x1). -/
def decodeSelector (p : BitVec 1) : Instr :=
  match Proto.ofBit p with
  | .cp => .mapCp
  | .ib => .mapIb

/-- Why a sequence of bytes is no word of the table. -/
inductive DecodeError
  /-- No byte at all. -/
  | empty
  /-- Two bytes whose bits 15:12 are not all 0: W has 12 bits (R88). -/
  | bitsAboveW
  /-- More than two bytes: no row of the table is that wide. -/
  | tooLong
deriving DecidableEq, Repr

/-- The decoder on bytes, total (log entry 7): one byte is the selector of a mapper row in bit 0, its other bits outside
the table's mask; two bytes, the lower half first, are W. -/
def decodeBytes : List Byte → Except DecodeError Instr
  | [] => .error .empty
  | [m] => .ok (decodeSelector (m.extractLsb' 0 1))
  | [lo, hi] =>
    if hi.extractLsb' 4 4 = 0#4 then .ok (decodeW (hi.extractLsb' 0 4 ++ lo)) else .error .bitsAboveW
  | _ :: _ :: _ :: _ => .error .tooLong

/-- The first n bytes of a word numbered as opcode_table.json numbers its bits, bit 0 in the first byte. -/
def tableBytes : Nat → Nat → List Byte
  | 0, _ => []
  | n + 1, w => BitVec.ofNat 8 w :: tableBytes n (w / 256)

/-- The instruction the decoder reads from a word of `nbits` bits with the value w. -/
def decodeTableWord (nbits w : Nat) : Option Instr :=
  match decodeBytes (tableBytes ((nbits + 7) / 8) w) with
  | .ok i => some i
  | .error _ => none

/-! The encoder. -/

/-- A row's match value with the byte in bits 7:0. -/
def withByte (pattern : BitVec 12) (b : Byte) : BitVec 12 := pattern ||| b.setWidth 12

/-- A BAD_STATE row's match value with the code in bits 10:8 and the byte in bits 7:0. -/
def withCode (pattern : BitVec 12) (st : BitVec 3) (b : Byte) : BitVec 12 :=
  pattern ||| (st.setWidth 12 <<< 8) ||| b.setWidth 12

/-- The decode word of a rule, from the match column of R89; the mapper rows have none. -/
def encodeW : Instr → Option (BitVec 12)
  | .cpScanASync => some (withByte 0x000 Params.cpHeaderA)
  | .cpScanASkip b => some (withByte 0x000 b)
  | .cpScanBOk => some (withByte 0x100 Params.cpHeaderB)
  | .cpScanBResync => some (withByte 0x100 Params.cpHeaderA)
  | .cpScanBFail b => some (withByte 0x100 b)
  | .cpPayloadByte b => some (withByte 0x200 b)
  | .cpCsumHi b => some (withByte 0x300 b)
  | .cpCsumLo b => some (withByte 0x400 b)
  | .cpBadState st b => some (withCode 0x000 st b)
  | .ibHdrASync => some (withByte 0x800 Params.ibHdrA)
  | .ibHdrASkip b => some (withByte 0x800 b)
  | .ibHdrBOk => some (withByte 0x900 Params.ibHdrB)
  | .ibHdrBFail b => some (withByte 0x900 b)
  | .ibIntLo b => some (withByte 0xA00 b)
  | .ibIntHi b => some (withByte 0xB00 b)
  | .ibCheckA b => some (withByte 0xC00 b)
  | .ibCheckB b => some (withByte 0xD00 b)
  | .ibBadState st b => some (withCode 0x800 st b)
  | .mapCp => none
  | .mapIb => none

/-- The two bytes of a decode word, the lower half first. -/
def wBytes (w : BitVec 12) : List Byte := [w.extractLsb' 0 8, (w.extractLsb' 8 4).setWidth 8]

/-- The bytes of an instruction (log entry 7): W's two bytes, or the one byte of a mapper row's selector. -/
def encode (i : Instr) : List Byte :=
  match encodeW i with
  | some w => wBytes w
  | none => if i = .mapIb then [0x01] else [0x00]

/-! The table itself, as data, to hold the decoder against. -/

/-- One row of R89's table: `(W AND mask) = pattern` (the column "match"). A row with one fixed byte has that byte in bits
7:0 of its pattern. -/
structure MapRow where
  mnemonic : String
  pattern : BitVec 12
  mask : BitVec 12
deriving DecidableEq, Repr

/-- The rows of R89 with PROTO = 0, in order. -/
def cpRows : List MapRow :=
  [⟨"CP_SCAN_A_SYNC", withByte 0x000 Params.cpHeaderA, 0xFFF⟩,
   ⟨"CP_SCAN_A_SKIP", 0x000, 0xF00⟩,
   ⟨"CP_SCAN_B_OK", withByte 0x100 Params.cpHeaderB, 0xFFF⟩,
   ⟨"CP_SCAN_B_RESYNC", withByte 0x100 Params.cpHeaderA, 0xFFF⟩,
   ⟨"CP_SCAN_B_FAIL", 0x100, 0xF00⟩,
   ⟨"CP_PAYLOAD_BYTE", 0x200, 0xF00⟩,
   ⟨"CP_CSUM_HI", 0x300, 0xF00⟩,
   ⟨"CP_CSUM_LO", 0x400, 0xF00⟩,
   ⟨"CP_BAD_STATE", 0x000, 0x800⟩]

/-- The rows of R89 with PROTO = 1, in order. -/
def ibRows : List MapRow :=
  [⟨"IB_HDR_A_SYNC", withByte 0x800 Params.ibHdrA, 0xFFF⟩,
   ⟨"IB_HDR_A_SKIP", 0x800, 0xF00⟩,
   ⟨"IB_HDR_B_OK", withByte 0x900 Params.ibHdrB, 0xFFF⟩,
   ⟨"IB_HDR_B_FAIL", 0x900, 0xF00⟩,
   ⟨"IB_INT_LO", 0xA00, 0xF00⟩,
   ⟨"IB_INT_HI", 0xB00, 0xF00⟩,
   ⟨"IB_CHECK_A", 0xC00, 0xF00⟩,
   ⟨"IB_CHECK_B", 0xD00, 0xF00⟩,
   ⟨"IB_BAD_STATE", 0x800, 0x800⟩]

/-- The transition map, rows 1 to 18 in order (R89). -/
def transitionMap : List MapRow := cpRows ++ ibRows

/-- The first row that matches W (R89). -/
def firstRow (w : BitVec 12) : Option MapRow := transitionMap.find? fun r => w &&& r.mask = r.pattern

/-- The table's name of an instruction. -/
def Instr.mnemonic : Instr → String
  | .cpScanASync => "CP_SCAN_A_SYNC"
  | .cpScanASkip _ => "CP_SCAN_A_SKIP"
  | .cpScanBOk => "CP_SCAN_B_OK"
  | .cpScanBResync => "CP_SCAN_B_RESYNC"
  | .cpScanBFail _ => "CP_SCAN_B_FAIL"
  | .cpPayloadByte _ => "CP_PAYLOAD_BYTE"
  | .cpCsumHi _ => "CP_CSUM_HI"
  | .cpCsumLo _ => "CP_CSUM_LO"
  | .cpBadState _ _ => "CP_BAD_STATE"
  | .ibHdrASync => "IB_HDR_A_SYNC"
  | .ibHdrASkip _ => "IB_HDR_A_SKIP"
  | .ibHdrBOk => "IB_HDR_B_OK"
  | .ibHdrBFail _ => "IB_HDR_B_FAIL"
  | .ibIntLo _ => "IB_INT_LO"
  | .ibIntHi _ => "IB_INT_HI"
  | .ibCheckA _ => "IB_CHECK_A"
  | .ibCheckB _ => "IB_CHECK_B"
  | .ibBadState _ _ => "IB_BAD_STATE"
  | .mapCp => "MAP_CP"
  | .mapIb => "MAP_IB"

end Sys2Proof
end

