-- ==== Sys2Proof/Config.lean ====
section
/-! DEFINITION. What stands outside the block's own state: the input ports at one rising edge (10_state R22), and the
FREE VALUES of the model, constants without a body, so that no proof can see what they are. The numeric parameters of
00_scope R8 stand in Machine/Params.lean, each under a name of its own. -/

namespace Sys2Proof

/-- The input ports as one rising edge of `clk` samples them (R22). -/
structure Edge where
  rst : Bool
  protoSel : Proto
  inValid : Bool
  inData : Byte
deriving DecidableEq, Repr, Inhabited

/-- FREE VALUE (log entry 2): what the ports carry at the n-th rising edge when no sample is listed for it. The spec
leaves what drives the ports to the environment (R22, R72). -/
opaque Config.freeEdge : Nat → Edge

/-- FREE VALUE (log entry 4): CBUF after a write to a slot it does not have (CCNT of 14 or 15; R116 has 0 to 13). -/
opaque Config.strayCbuf : Payload → BitVec 4 → Byte → Payload

/-- FREE VALUE (log entry 4): ICH after a write to a slot it does not have (IIDX of 14 or 15; R145 has 0 to 13). -/
opaque Config.strayIch : Channels → BitVec 4 → Word → Channels

/-- FREE VALUE (log entry 4): what a read of a slot that ICH does not have gives (IIDX of 14 or 15). -/
opaque Config.strayIchSlot : Channels → BitVec 4 → Word

end Sys2Proof
end

