-- ==== Sys2Proof/Machine/Operands.lean ====
section
/-! DEFINITION. How 16-bit operands are assembled from bytes (20 R64, R65; 30 R81, R82, R85), how a slot of a register
file is read and written, the frames CP and IB emit (41 R119, 42 R148), and the Channel Mapper as a function (43 R170 to R173). -/

namespace Sys2Proof.Machine

/-- `zext_16(b)` (R12). -/
def zext16 (b : Byte) : Word := b.setWidth 16

/-- `hi ‖ lo` = 256·hi + lo (R11). -/
def cat (hi lo : Byte) : Word := hi ++ lo

/-- Bits 15:8 of a word (R11). -/
def hiByte (v : Word) : Byte := v.extractLsb' 8 8

/-- Bits 7:0 of a word (R11). -/
def loByte (v : Word) : Byte := v.extractLsb' 0 8

/-- `low OR (zext_16(b) << 8)`: the high byte arriving second (R65, R146, R148). -/
def orHigh (low : Word) (b : Byte) : Word := low ||| (zext16 b <<< 8)

/-! Slots. A 4-bit index can name slots 14 and 15, which no register file has: free values (log entry 4). -/

/-- `CBUF[i] <- b` (R116). -/
def cbufWrite (buf : Payload) (i : BitVec 4) (b : Byte) : Payload :=
  if h : i.toNat < Params.cpPayloadBytes then buf.set i.toNat b h else Config.strayCbuf buf i b

/-- `ICH[i]` (R146). -/
def ichRead (ch : Channels) (i : BitVec 4) : Word :=
  if h : i.toNat < Params.ibChannels then ch[i.toNat] else Config.strayIchSlot ch i

/-- `ICH[i] <- v` (R145, R146). -/
def ichWrite (ch : Channels) (i : BitVec 4) (v : Word) : Channels :=
  if h : i.toNat < Params.ibChannels then ch.set i.toNat v h else Config.strayIch ch i v

/-! The Custom Protocol's payload. -/

/-- `word(k) = P[2k] ‖ P[2k+1]`, big-endian (R81). -/
def cpWord (buf : Payload) (k : Fin Params.cpWords) : Word :=
  cat (buf[2 * k.val]'(Nat.lt_of_succ_lt (Params.cpWords_lt k))) (buf[2 * k.val + 1]'(Params.cpWords_lt k))

/-- A channel word less CP_CHANNEL_OFFSET, modulo 2^16 (R119). -/
def cpChannel (buf : Payload) (k : Fin Params.cpWords) : Word := cpWord buf k - Params.cpChannelOffset

/-- CPDecode(CBUF) (R119): slot by slot the CP_CHANNELS offset channels, then the raw test word, then zeros. -/
def cpDecode (buf : Payload) : Frame :=
  Vector.ofFn fun k : Fin Params.frameSlots =>
    if h : k.val < Params.cpChannels then cpChannel buf ⟨k.val, Nat.lt_succ_of_lt h⟩
    else if k.val = Params.cpChannels then cpWord buf Params.cpTestSlot
    else 0

/-- The frame that IB emits: `FRnext[k] <- ICH[k]` for every k (R148). -/
def ibFrame (ch : Channels) : Frame := ch.cast Params.ibChannels_frame

/-! The Channel Mapper. -/

/-- `min_u` (R12). -/
def minU (a b : Word) : Word := if a.toNat ≤ b.toNat then a else b

/-- T_CP (R171). -/
def tCp (v : Word) : Word := minU v Params.cpChannelMaximum - Params.cpCenter

/-- T_IB (R172): the difference modulo 2^16, which the report reads as two's complement. -/
def tIb (v : Word) : Word := v - Params.ibCenter

/-- REPORT index j takes the transform of frame slot AXIS_SRC[j] (R170, R173). -/
def mapAxes (t : Word → Word) (f : Frame) : Report :=
  #v[t f[Params.axisSrc[0]], t f[Params.axisSrc[1]], t f[Params.axisSrc[2]],
     t f[Params.axisSrc[3]], t f[Params.axisSrc[4]], t f[Params.axisSrc[5]]]

/-- `Map(PROTO, F)` (R170). -/
def mapReport (p : Proto) (f : Frame) : Report :=
  match p with
  | .cp => mapAxes tCp f
  | .ib => mapAxes tIb f

end Sys2Proof.Machine
end

