-- ==== Sys2Proof/Machine/State.lean ====
section
/-! DEFINITION. Everything the spec gives the block (10_state R20: "No other state exists"), the reset values (R43), and
how a step can end. The block has no memory (R20, R62), so there is none here. The last two fields of State are the
model's own and stand for the input ports (log entries 1 and 2). -/

namespace Sys2Proof.Machine

structure State where
  /-- PROTO (R21). -/
  proto : Proto
  /-- CST (R25). -/
  cst : BitVec 3
  /-- CCNT (R26). -/
  ccnt : BitVec 4
  /-- CBUF[0..13] (R27). -/
  cbuf : Payload
  /-- CSUM (R28). -/
  csum : Word
  /-- CTRH (R29). -/
  ctrh : Byte
  /-- IST (R30). -/
  ist : BitVec 3
  /-- IIDX (R31). -/
  iidx : BitVec 4
  /-- IACC (R32). -/
  iacc : Word
  /-- ICH[0..13] (R33). -/
  ich : Channels
  /-- IWCS (R34). -/
  iwcs : Word
  /-- FR[0..13] (R35). -/
  fr : Frame
  /-- REPORT[0..5] (R36). -/
  report : Report
  /-- OUT_VALID (R37). -/
  outValid : Bool
  /-- EV_CSUM_ERR (R38). -/
  evCsumErr : Bool
  /-- EV_TEST_MISMATCH (R38). -/
  evTestMismatch : Bool
  /-- The model's own: the port samples of the coming rising edges, the next one first (log entry 1). -/
  inputs : List Edge
  /-- The model's own: how many rising edges have been taken; it indexes the free samples (log entry 2). -/
  edge : Nat
deriving DecidableEq, Repr

/-- What can stop the machine: nothing. "Nothing in the decoder itself is fatal" (60_exceptions R195), so this type has
no constructor: nobody raises a fault, and that is safe because no step needs one (log entry 12). -/
inductive Fault
deriving DecidableEq, Repr

/-- Why the MODEL has no meaning for an instruction. -/
inductive Refusal
  /-- Raised only by an arm of `exec` whose instruction has no meaning yet (none here); safe. -/
  | notModelled (mnemonic : String)
deriving DecidableEq, Repr

/-- The conditions the block detects (R190). They are events, not traps: none stops or redirects the machine (R195). -/
inductive Event
  | framingError
  | csumMismatch
  | testMismatch
deriving DecidableEq, Repr

/-- The output ports (R23). -/
structure Outputs where
  inReady : Bool
  outValid : Bool
  leftX : Word
  leftY : Word
  rightX : Word
  rightY : Word
  aux1 : Word
  aux2 : Word
  frame : Frame
  evCsumErr : Bool
  evTestMismatch : Bool
deriving DecidableEq, Repr

/-- The values of R43, after a reset step with `proto_sel` = p. No sample is listed and no edge is counted. -/
def State.resetWith (p : Proto) : State where
  proto := p
  cst := Params.cpScanA
  ccnt := 0
  cbuf := Vector.replicate Params.cpPayloadBytes 0
  csum := 0
  ctrh := 0
  ist := Params.ibStHdrA
  iidx := 0
  iacc := Params.ibCsumInit
  ich := Vector.replicate Params.ibChannels 0
  iwcs := 0
  fr := Vector.replicate Params.frameSlots 0
  report := Vector.replicate 6 0
  outValid := false
  evCsumErr := false
  evTestMismatch := false
  inputs := []
  edge := 0

/-- The machine right after reset. PROTO takes `proto_sel`, which the spec leaves to the environment: DESIGN CHOICE, the
Custom Protocol (log entry 3). -/
def State.reset : State := State.resetWith .cp

end Sys2Proof.Machine
end

