-- ==== Sys2Proof/Machine/Flags.lean ====
section
/-! DEFINITION. The conditions that decide the three pulse registers, the block's only flags (10_state R37, R38, R41):
the running checksums, the comparisons at a frame's last byte, and the clearing that every step begins with. -/

namespace Sys2Proof.Machine

/-- CSUM after a payload byte (R116): only the bytes with an index below CP_SUM_BYTES are added. -/
def cpSumStep (csum : Word) (ccnt : BitVec 4) (b : Byte) : Word :=
  if ccnt.toNat < Params.cpSumBytes then csum + zext16 b else csum

/-- IACC after a byte (R32). -/
def ibSumStep (iacc : Word) (b : Byte) : Word := iacc - zext16 b

/-- Is the packet valid: is CSUM the big-endian trailer (R82, R83, R118)? -/
def cpValid (csum : Word) (hi lo : Byte) : Bool := csum = cat hi lo

/-- TestMismatch(CBUF) (R120): the raw test word differs from the raw word of channel 2. -/
def cpTestMismatch (buf : Payload) : Bool := cpWord buf Params.cpTestSlot ≠ cpWord buf Params.cpTestChannel

/-- Is the frame valid: is the wire checksum `IWCS OR (b << 8)` equal to IACC (R34, R148)? -/
def ibValid (iacc iwcs : Word) (b : Byte) : Bool := orHigh iwcs b = iacc

/-- What every step writes to the pulses before its own `Emit` or `raise` sets one (R37, R38): 0. -/
def State.clearPulses (s : State) : State :=
  { s with outValid := false, evCsumErr := false, evTestMismatch := false }

end Sys2Proof.Machine
end

