-- ==== Sys2Proof/Machine/Ops.lean ====
section
/-! DEFINITION. The named operations of the block: `Emit`, `raise` (the one shared operation for every event; the block
has no exception entry and no return from one, 60_exceptions R195, R196), the reset and the idle step, the decode word of
a state, the sampling of the input ports, the output ports, and how a table word is placed before the next edge. -/

namespace Sys2Proof.Machine

/-- `Emit(FRnext)` (R37): FR, REPORT and OUT_VALID together. -/
def State.emit (f : Frame) (s : State) : State :=
  { s with fr := f, report := mapReport s.proto f, outValid := true }

/-- `raise` (R14, R38, R191 to R193): the named event's pulse. A framing error is silent (R191). -/
def State.raise (e : Event) (s : State) : State :=
  match e with
  | .framingError => s
  | .csumMismatch => { s with evCsumErr := true }
  | .testMismatch => { s with evTestMismatch := true }

/-- The trace label of an event (R190). No state element holds it. -/
def Event.code : Event → Nat
  | .framingError => 1
  | .csumMismatch => 2
  | .testMismatch => 3

/-- A step with `rst` = 1 (R210): every element of R43, PROTO from `proto_sel`. The environment's samples stay. -/
def State.resetStep (p : Proto) (s : State) : State :=
  { State.resetWith p with inputs := s.inputs, edge := s.edge }

/-- A step with `rst` = 0 and `in_valid` = 0 (R61): the pulses fall, nothing else changes. -/
def State.idle (s : State) : State := s.clearPulses

/-- ST, the state register of the active parser (R87). -/
def State.activeCode (s : State) : BitVec 3 :=
  match s.proto with
  | .cp => s.cst
  | .ib => s.ist

/-- The decode word W of an accepting step (R88). -/
def State.decodeWord (s : State) (b : Byte) : BitVec 12 := mkW s.proto s.activeCode b

/-- What the input ports carry at the next rising edge (R22): the first listed sample, else a free one (log entry 2). -/
def State.nextEdge (s : State) : Edge :=
  match s.inputs with
  | [] => Config.freeEdge s.edge
  | e :: _ => e

/-- The state once the ports have been sampled: one listed sample fewer, one edge more. -/
def State.afterEdge (s : State) : State := { s with inputs := s.inputs.tail, edge := s.edge + 1 }

/-- The output ports, each driven by the state element of its name; `in_ready` is the constant 1 (R23, R24, R36). -/
def State.outputs (s : State) : Outputs where
  inReady := true
  outValid := s.outValid
  leftX := s.report[0]
  leftY := s.report[1]
  rightX := s.report[2]
  rightY := s.report[3]
  aux1 := s.report[4]
  aux2 := s.report[5]
  frame := s.fr
  evCsumErr := s.evCsumErr
  evTestMismatch := s.evTestMismatch

/-! Placing a word of the table before the next edge (log entry 6). -/

/-- The ports of an edge that accepts b (R60). -/
def acceptEdge (b : Byte) : Edge := { rst := false, protoSel := .cp, inValid := true, inData := b }

/-- The state with PROTO and the active parser's state register as W has them, and W's byte next on the ports. -/
def State.placeW (s : State) (w : BitVec 12) : State :=
  match wProto w with
  | .cp => { s with proto := .cp, cst := wSt w, inputs := acceptEdge (wByte w) :: s.inputs }
  | .ib => { s with proto := .ib, ist := wSt w, inputs := acceptEdge (wByte w) :: s.inputs }

/-- The state before the last byte of a frame that validates, so that the next step's `Emit` runs the mapper row of p:
the wire checksum is made equal to the sum the parser holds. -/
def State.placeMapper (s : State) (p : Proto) : State :=
  match p with
  | .cp =>
    { s with
      proto := .cp
      cst := Params.cpCsumLo
      ctrh := hiByte s.csum
      inputs := acceptEdge (loByte s.csum) :: s.inputs }
  | .ib =>
    { s with
      proto := .ib
      ist := Params.ibStCheckB
      iwcs := zext16 (loByte s.iacc)
      inputs := acceptEdge (hiByte s.iacc) :: s.inputs }

/-- A table word of at most 8 bits is a mapper row's selector, a longer one is W. -/
def State.placeTableWord (s : State) (nbits w : Nat) : State :=
  if nbits ≤ 8 then s.placeMapper (Proto.ofBit (BitVec.ofNat 1 w)) else s.placeW (BitVec.ofNat 12 w)

end Sys2Proof.Machine
end

