-- ==== Sys2Proof/Machine/CustomProtocol.lean ====
section
/-! DEFINITION. The Custom-Protocol rules (41_custom_protocol R110 to R121), one meaning per row. A meaning is the
EFFECT of its rule; the rule's condition on CST and b is the row's match, which the decode of W establishes (log entry 8).
Every right-hand side reads the state at the start of the step (R13); every meaning clears the pulses first (R110). -/

namespace Sys2Proof.Machine

/-- CP_SCAN_A_SYNC (R111). -/
def execCpScanASync (s : State) : Host.Outcome State Fault Refusal :=
  .next { s.clearPulses with cst := Params.cpScanB }

/-- CP_SCAN_A_SKIP (R112): the byte is dropped, a framing error. -/
def execCpScanASkip (_b : Byte) (s : State) : Host.Outcome State Fault Refusal :=
  .next (s.clearPulses.raise .framingError)

/-- CP_SCAN_B_OK (R113). -/
def execCpScanBOk (s : State) : Host.Outcome State Fault Refusal :=
  .next { s.clearPulses with cst := Params.cpPayload, ccnt := 0, csum := 0 }

/-- CP_SCAN_B_RESYNC (R114): the candidate is a new HEADER_A, and the rejected pair is a framing error (R190). -/
def execCpScanBResync (s : State) : Host.Outcome State Fault Refusal :=
  .next ({ s.clearPulses with cst := Params.cpScanB }.raise .framingError)

/-- CP_SCAN_B_FAIL (R115): the candidate is dropped. -/
def execCpScanBFail (_b : Byte) (s : State) : Host.Outcome State Fault Refusal :=
  .next ({ s.clearPulses with cst := Params.cpScanA }.raise .framingError)

/-- CP_PAYLOAD_BYTE (R116). -/
def execCpPayloadByte (b : Byte) (s : State) : Host.Outcome State Fault Refusal :=
  .next { s.clearPulses with
    cbuf := cbufWrite s.cbuf s.ccnt b
    csum := cpSumStep s.csum s.ccnt b
    ccnt := s.ccnt + 1
    cst := if s.ccnt.toNat + 1 = Params.cpPayloadBytes then Params.cpCsumHi else s.cst }

/-- CP_CSUM_HI (R117). -/
def execCpCsumHi (b : Byte) (s : State) : Host.Outcome State Fault Refusal :=
  .next { s.clearPulses with ctrh := b, cst := Params.cpCsumLo }

/-- CP_CSUM_LO (R118): the checksum first, the test channel only on a match, and a test mismatch does not stop the
emit (R193, R194). -/
def execCpCsumLo (b : Byte) (s : State) : Host.Outcome State Fault Refusal :=
  let s' := { s.clearPulses with cst := Params.cpScanA }
  if cpValid s.csum s.ctrh b then
    let s'' := s'.emit (cpDecode s.cbuf)
    if cpTestMismatch s.cbuf then .next (s''.raise .testMismatch) else .next s''
  else .next (s'.raise .csumMismatch)

/-- CP_BAD_STATE (R121): the byte is taken as in CP_SCAN_A. -/
def execCpBadState (_st : BitVec 3) (b : Byte) (s : State) : Host.Outcome State Fault Refusal :=
  .next { s.clearPulses with cst := if b = Params.cpHeaderA then Params.cpScanB else Params.cpScanA }

end Sys2Proof.Machine
end

