-- ==== Sys2Proof/Machine/Ibus.lean ====
section
/-! DEFINITION. The IBUS rules (42_ibus R140 to R149), one meaning per row, written as those of CustomProtocol.lean: the
effect of the rule, its condition being the row's match (log entry 8). -/

namespace Sys2Proof.Machine

/-- IB_HDR_A_SYNC (R141). -/
def execIbHdrASync (s : State) : Host.Outcome State Fault Refusal :=
  .next { s.clearPulses with iacc := ibSumStep Params.ibCsumInit Params.ibHdrA, ist := Params.ibStHdrB }

/-- IB_HDR_A_SKIP (R142): the byte is ignored, a framing error. -/
def execIbHdrASkip (_b : Byte) (s : State) : Host.Outcome State Fault Refusal :=
  .next (s.clearPulses.raise .framingError)

/-- IB_HDR_B_OK (R143). -/
def execIbHdrBOk (s : State) : Host.Outcome State Fault Refusal :=
  .next { s.clearPulses with iacc := ibSumStep s.iacc Params.ibHdrB, iidx := 0, ist := Params.ibStIntLo }

/-- IB_HDR_B_FAIL (R144): the byte is consumed, subtracted all the same, and not tried as a header A. -/
def execIbHdrBFail (b : Byte) (s : State) : Host.Outcome State Fault Refusal :=
  .next ({ s.clearPulses with iacc := ibSumStep s.iacc b, iidx := 0, ist := Params.ibStHdrA }.raise .framingError)

/-- IB_INT_LO (R145): the whole slot is written. -/
def execIbIntLo (b : Byte) (s : State) : Host.Outcome State Fault Refusal :=
  .next { s.clearPulses with
    ich := ichWrite s.ich s.iidx (zext16 b)
    iacc := ibSumStep s.iacc b
    ist := Params.ibStIntHi }

/-- IB_INT_HI (R146). -/
def execIbIntHi (b : Byte) (s : State) : Host.Outcome State Fault Refusal :=
  .next { s.clearPulses with
    ich := ichWrite s.ich s.iidx (orHigh (ichRead s.ich s.iidx) b)
    iacc := ibSumStep s.iacc b
    iidx := s.iidx + 1
    ist := if s.iidx.toNat + 1 = Params.ibChannels then Params.ibStCheckA else Params.ibStIntLo }

/-- IB_CHECK_A (R147): the whole register is written, and nothing is subtracted. -/
def execIbCheckA (b : Byte) (s : State) : Host.Outcome State Fault Refusal :=
  .next { s.clearPulses with iwcs := zext16 b, ist := Params.ibStCheckB }

/-- IB_CHECK_B (R148): the assembled wire checksum C is compared with IACC, and IWCS keeps it (R148's corner cases; log
entry 10). -/
def execIbCheckB (b : Byte) (s : State) : Host.Outcome State Fault Refusal :=
  let s' := { s.clearPulses with
    ist := Params.ibStHdrA, iacc := Params.ibCsumInit, iwcs := orHigh s.iwcs b }
  if ibValid s.iacc s.iwcs b then .next (s'.emit (ibFrame s.ich)) else .next (s'.raise .csumMismatch)

/-- IB_BAD_STATE (R149): the byte is taken as in HDR_A. -/
def execIbBadState (_st : BitVec 3) (b : Byte) (s : State) : Host.Outcome State Fault Refusal :=
  if b = Params.ibHdrA then
    .next { s.clearPulses with iacc := ibSumStep Params.ibCsumInit b, ist := Params.ibStHdrB }
  else .next { s.clearPulses with ist := Params.ibStHdrA }

end Sys2Proof.Machine
end

