-- ==== Sys2Proof/Machine/Mapper.lean ====
section
/-! DEFINITION. The two rows of the Channel Mapper (43_channel_mapper R170 to R173). No decode word selects them: `Emit`
does, by PROTO, inside the step that writes FR (R170, R37). As an instruction of its own a row is the mapper's
combinational logic applied to the frame register, its result written to REPORT and nothing else (R171, R172 "Flags
written: none"; log entry 5). -/

namespace Sys2Proof.Machine

/-- MAP_CP (R171): every axis through T_CP. -/
def execMapCp (s : State) : Host.Outcome State Fault Refusal :=
  .next { s with report := mapAxes tCp s.fr }

/-- MAP_IB (R172): every axis through T_IB. -/
def execMapIb (s : State) : Host.Outcome State Fault Refusal :=
  .next { s with report := mapAxes tIb s.fr }

end Sys2Proof.Machine
end

