-- ==== Sys2Proof/Machine/Dispatch.lean ====
section
/-! DEFINITION. One arm per row of the opcode table. -/

namespace Sys2Proof.Machine

def exec (i : Instr) (s : State) : Host.Outcome State Fault Refusal :=
  match i with
  | .cpScanASync => Sys2Proof.Machine.execCpScanASync s
  | .cpScanASkip b => Sys2Proof.Machine.execCpScanASkip b s
  | .cpScanBOk => Sys2Proof.Machine.execCpScanBOk s
  | .cpScanBResync => Sys2Proof.Machine.execCpScanBResync s
  | .cpScanBFail b => Sys2Proof.Machine.execCpScanBFail b s
  | .cpPayloadByte b => Sys2Proof.Machine.execCpPayloadByte b s
  | .cpCsumHi b => Sys2Proof.Machine.execCpCsumHi b s
  | .cpCsumLo b => Sys2Proof.Machine.execCpCsumLo b s
  | .cpBadState st b => Sys2Proof.Machine.execCpBadState st b s
  | .ibHdrASync => Sys2Proof.Machine.execIbHdrASync s
  | .ibHdrASkip b => Sys2Proof.Machine.execIbHdrASkip b s
  | .ibHdrBOk => Sys2Proof.Machine.execIbHdrBOk s
  | .ibHdrBFail b => Sys2Proof.Machine.execIbHdrBFail b s
  | .ibIntLo b => Sys2Proof.Machine.execIbIntLo b s
  | .ibIntHi b => Sys2Proof.Machine.execIbIntHi b s
  | .ibCheckA b => Sys2Proof.Machine.execIbCheckA b s
  | .ibCheckB b => Sys2Proof.Machine.execIbCheckB b s
  | .ibBadState st b => Sys2Proof.Machine.execIbBadState st b s
  | .mapCp => Sys2Proof.Machine.execMapCp s
  | .mapIb => Sys2Proof.Machine.execMapIb s

end Sys2Proof.Machine
end

