-- ==== Sys2Proof/Machine/Clock.lean ====
section
/-! DEFINITION. One rising edge of `clk` with given port values: a reset step (70 R210), an idle step (20 R61), or the
acceptance of one byte by the one rule that W selects (20 R60, 30 R89). -/

namespace Sys2Proof.Machine

/-- `Accept(b)` (R60). -/
def accept (b : Byte) (s : State) : Host.Outcome State Fault Refusal := exec (decodeW (s.decodeWord b)) s

/-- One edge: `rst` overrides everything (R194), and a byte is accepted only with `in_valid` (R60). -/
def clockEdge (e : Edge) (s : State) : Host.Outcome State Fault Refusal :=
  if e.rst then .next (s.resetStep e.protoSel)
  else if e.inValid then accept e.inData s
  else .next s.idle

end Sys2Proof.Machine
end

