-- ==== Sys2Proof/Machine/Step.lean ====
section
/-! DEFINITION. One step is one rising edge of `clk` (10_state R22): the ports are sampled, then the edge acts. -/

namespace Sys2Proof.Machine

def step (s : State) : Host.Outcome State Fault Refusal := clockEdge s.nextEdge s.afterEdge

/-- s with a word of the opcode table placed so that the very next step runs its row (log entry 6). -/
def State.withFetchWord (s : State) (nbits w : Nat) : State := s.placeTableWord nbits w

end Sys2Proof.Machine
end

