-- ==== Sys2Proof/Machine/Events.lean ====
section
/-! DEFINITION. The event trace (60_exceptions R190): which events a rule raises from a state. The trace is an
observation; no state element or port holds it. The table of R190 names the rules that raise each event, and BAD_STATE is
not among them (log entry 13). -/

namespace Sys2Proof.Machine

/-- The events of one rule (R190). -/
def events (i : Instr) (s : State) : List Event :=
  match i with
  | .cpScanASync => []
  | .cpScanASkip _ => [.framingError]
  | .cpScanBOk => []
  | .cpScanBResync => [.framingError]
  | .cpScanBFail _ => [.framingError]
  | .cpPayloadByte _ => []
  | .cpCsumHi _ => []
  | .cpCsumLo b =>
    if cpValid s.csum s.ctrh b then if cpTestMismatch s.cbuf then [.testMismatch] else [] else [.csumMismatch]
  | .cpBadState _ _ => []
  | .ibHdrASync => []
  | .ibHdrASkip _ => [.framingError]
  | .ibHdrBOk => []
  | .ibHdrBFail _ => [.framingError]
  | .ibIntLo _ => []
  | .ibIntHi _ => []
  | .ibCheckA _ => []
  | .ibCheckB b => if ibValid s.iacc s.iwcs b then [] else [.csumMismatch]
  | .ibBadState _ _ => []
  | .mapCp => []
  | .mapIb => []

/-- The events of one edge: none in a reset or an idle step (R194, R61). -/
def edgeEvents (e : Edge) (s : State) : List Event :=
  if e.rst then [] else if e.inValid then events (decodeW (s.decodeWord e.inData)) s else []

end Sys2Proof.Machine
end

