-- ==== Sys2Proof/Machine/Stream.lean ====
section
/-! DEFINITION. The stream notation (30_encoding R94, R95): byte sequences in arrival order, the two wire formats
(R80, R84) with the checksum of R83 and R86, and the port samples that feed them to the block one byte an edge. -/

namespace Sys2Proof.Machine

/-- The sum of bytes modulo 2^16. -/
def byteSum (p : List Byte) : Word := p.foldl (fun a b => a + zext16 b) 0

/-- The CP checksum S of payload bytes (R83): the sum of the first CP_SUM_BYTES of them. -/
def cpSum (p : List Byte) : Word := byteSum (p.take Params.cpSumBytes)

/-- The IB checksum of a frame's bytes before the checksum (R86): IB_CSUM_INIT less each of them, modulo 2^16. -/
def ibSum (p : List Byte) : Word := p.foldl (fun a b => a - zext16 b) Params.ibCsumInit

/-- The two header bytes of a CP packet (R80). -/
def cpHeader : List Byte := [Params.cpHeaderA, Params.cpHeaderB]

/-- The two header bytes of an IB frame (R84). -/
def ibHeader : List Byte := [Params.ibHdrA, Params.ibHdrB]

/-- The 18 bytes of a CP packet with payload p and trailer t (R80, R82). -/
def cpPacket (p : Payload) (t : Word) : List Byte := cpHeader ++ p.toList ++ [hiByte t, loByte t]

/-- The bytes of words, each (hi, lo) (R64, R81). -/
def bigEndian (ws : List Word) : List Byte := ws.flatMap fun w => [hiByte w, loByte w]

/-- The bytes of words, each (lo, hi) (R65, R85). -/
def littleEndian (ws : List Word) : List Byte := ws.flatMap fun w => [loByte w, hiByte w]

/-- `CPF!(w0, …, w6; T)` (R95). -/
def cpfWith (ws : Vector Word Params.cpWords) (t : Word) : List Byte :=
  cpHeader ++ bigEndian ws.toList ++ [hiByte t, loByte t]

/-- `CPF(w0, …, w6)` (R95). -/
def cpf (ws : Vector Word Params.cpWords) : List Byte := cpfWith ws (cpSum (bigEndian ws.toList))

/-- The first 30 bytes of an IB frame with channels c (R84). -/
def ibBody (c : Channels) : List Byte := ibHeader ++ littleEndian c.toList

/-- `IBF!(c0, …, c13; C)` (R95): the 32 bytes of an IB frame (R84). -/
def ibfWith (c : Channels) (ck : Word) : List Byte := ibBody c ++ [loByte ck, hiByte ck]

/-- `IBF(c0, …, c13)` (R95). -/
def ibf (c : Channels) : List Byte := ibfWith c (ibSum (ibBody c))

/-- One byte an edge with `in_valid` = 1 (R95). -/
def feed (bs : List Byte) : List Edge := bs.map acceptEdge

/-- An edge with `rst` = 0 and `in_valid` = 0 (R94). -/
def idleEdge : Edge := { rst := false, protoSel := .cp, inValid := false, inData := 0 }

/-- `IDLE(n)` (R95). -/
def idleEdges (n : Nat) : List Edge := List.replicate n idleEdge

/-- `RESET(p)` (R95). -/
def resetEdge (p : Proto) : Edge := { rst := true, protoSel := p, inValid := false, inData := 0 }

end Sys2Proof.Machine
end

