-- ==== Sys2Proof/Safety.lean ====
section
/-! DEFINITION. What a good state of the block is, in the terms the claims use: the parser registers are those of some
prefix of a frame, the other parser is at rest, and the outputs are those of one frame. -/

namespace Sys2Proof.Safety

open Sys2Proof.Machine

/-- The CP registers at their reset values (R43, R39). -/
abbrev CpAtRest (s : State) : Prop :=
  s.cst = 0 ∧ s.ccnt = 0 ∧ s.cbuf = Vector.replicate Params.cpPayloadBytes 0 ∧ s.csum = 0 ∧ s.ctrh = 0

/-- The IB registers at their reset values (R43, R39). -/
abbrev IbAtRest (s : State) : Prop :=
  s.ist = 0 ∧ s.iidx = 0 ∧ s.iacc = Params.ibCsumInit ∧ s.ich = Vector.replicate Params.ibChannels 0 ∧ s.iwcs = 0

/-- CST is a code of R25, and CCNT is in its range: 0 to 13 while the payload is read, 14 in the trailer (R26, R116). -/
abbrev CpPosition (s : State) : Prop :=
  s.cst.toNat ≤ 4 ∧ s.ccnt.toNat ≤ Params.cpPayloadBytes ∧ (s.cst = 2 → s.ccnt.toNat < Params.cpPayloadBytes) ∧
    (s.cst = 3 ∨ s.cst = 4 → s.ccnt.toNat = Params.cpPayloadBytes)

/-- From the header on, CSUM is the checksum of the payload bytes already accepted (R28). -/
abbrev CpSummed (s : State) : Prop :=
  s.cst = 2 ∨ s.cst = 3 ∨ s.cst = 4 → s.csum = cpSum (s.cbuf.toList.take s.ccnt.toNat)

/-- IST is a code of R30, and IIDX is in its range: 0 to 13 while channels are read, 14 in the checksum (R31). -/
abbrev IbPosition (s : State) : Prop :=
  s.ist.toNat ≤ 5 ∧ s.iidx.toNat ≤ Params.ibChannels ∧ (s.ist = 2 ∨ s.ist = 3 → s.iidx.toNat < Params.ibChannels) ∧
    (s.ist = 4 ∨ s.ist = 5 → s.iidx.toNat = Params.ibChannels)

/-- From the header on, IACC is IB_CSUM_INIT less every byte of the frame already accepted (R32, R86): in INT_HI the current
slot holds its low byte alone, and in CHECK_B so does IWCS. -/
abbrev IbSummed (s : State) : Prop :=
  (s.ist = 1 → s.iacc = ibSum [Params.ibHdrA]) ∧
  (s.ist = 2 ∨ s.ist = 4 ∨ s.ist = 5 →
    s.iacc = ibSum (ibHeader ++ littleEndian (s.ich.toList.take s.iidx.toNat))) ∧
  (s.ist = 3 → hiByte (ichRead s.ich s.iidx) = 0 ∧
    s.iacc = ibSum (ibHeader ++ littleEndian (s.ich.toList.take s.iidx.toNat) ++ [loByte (ichRead s.ich s.iidx)])) ∧
  (s.ist = 5 → hiByte s.iwcs = 0)

/-- The parser that PROTO selects is in the course of a frame, and the other is at rest. -/
def Parsers (s : State) : Prop :=
  match s.proto with
  | .cp => CpPosition s ∧ CpSummed s ∧ IbAtRest s
  | .ib => IbPosition s ∧ IbSummed s ∧ CpAtRest s

/-- The pulses that can stand together (R194). -/
abbrev Pulses (s : State) : Prop :=
  ¬(s.evCsumErr = true ∧ s.outValid = true) ∧ (s.evTestMismatch = true → s.outValid = true) ∧
    (s.proto = .ib → s.evTestMismatch = false)

/-- FR and REPORT are those of the reset, with no `out_valid`, or a frame and what the mapper makes of it (R43, R37). -/
abbrev OutputsAgree (s : State) : Prop :=
  (s.fr = Vector.replicate Params.frameSlots 0 ∧ s.report = Vector.replicate 6 0 ∧ s.outValid = false) ∨
    s.report = mapReport s.proto s.fr

/-- A CP frame has zeros in slots 7 to 13 (R35). -/
abbrev CpTailZero (s : State) : Prop :=
  s.proto = .cp → ∀ k : Fin Params.frameSlots, Params.cpWords ≤ k.val → s.fr[k] = 0

/-- A good state: what every step keeps. -/
structure Inv (s : State) : Prop where
  parsers : Parsers s
  pulses : Pulses s
  outputs : OutputsAgree s
  tail : CpTailZero s

/-- How many more bytes the frame in progress takes once its header is confirmed; 0 in the header search (R40, R92). -/
def bytesLeft (s : State) : Nat :=
  match s.proto with
  | .cp =>
    if s.cst = 2 then Params.cpPacketBytes - 2 - s.ccnt.toNat else if s.cst = 3 then 2 else if s.cst = 4 then 1 else 0
  | .ib =>
    if s.ist = 2 then Params.ibFrameBytes - 2 - 2 * s.iidx.toNat
    else if s.ist = 3 then Params.ibFrameBytes - 3 - 2 * s.iidx.toNat
    else if s.ist = 4 then 2
    else if s.ist = 5 then 1
    else 0

/-- The active parser waits for a frame's first byte (R25, R30: code 0). -/
abbrev Searching (s : State) : Prop := s.activeCode = 0

/-- What a gap in the input leaves alone: everything but the pulses and the model's own two fields (R61, R42). -/
def hold (s : State) : State :=
  { s with outValid := false, evCsumErr := false, evTestMismatch := false, inputs := [], edge := 0 }

/-- k steps of the machine from s, stopping where a step stops. -/
def runSteps (k : Nat) (s : State) : Host.Outcome State Fault Refusal := Host.Core.run Sys2Proof.core k s

/-- The three pulses at 0, all else as it was: what every step starts from (R37, R38). -/
def quiet (s : State) : State := { s with outValid := false, evCsumErr := false, evTestMismatch := false }

/-- The next edge accepts the byte b (R60) while the parser that PROTO = p selects has the state code st. -/
abbrev Accepts (p : Proto) (st : BitVec 3) (b : Byte) (s : State) : Prop :=
  s.proto = p ∧ s.activeCode = st ∧ s.nextEdge.rst = false ∧ s.nextEdge.inValid = true ∧ s.nextEdge.inData = b

/-- The next step samples the ports and then runs the rule i. -/
def Runs (s : State) (i : Instr) : Prop := step s = exec i s.afterEdge

/-- The parser a rule belongs to; the mapper rows belong to neither (00_scope R2). -/
def parserOf : Instr → Option Proto
  | .cpScanASync => some .cp
  | .cpScanASkip _ => some .cp
  | .cpScanBOk => some .cp
  | .cpScanBResync => some .cp
  | .cpScanBFail _ => some .cp
  | .cpPayloadByte _ => some .cp
  | .cpCsumHi _ => some .cp
  | .cpCsumLo _ => some .cp
  | .cpBadState _ _ => some .cp
  | .ibHdrASync => some .ib
  | .ibHdrASkip _ => some .ib
  | .ibHdrBOk => some .ib
  | .ibHdrBFail _ => some .ib
  | .ibIntLo _ => some .ib
  | .ibIntHi _ => some .ib
  | .ibCheckA _ => some .ib
  | .ibCheckB _ => some .ib
  | .ibBadState _ _ => some .ib
  | .mapCp => none
  | .mapIb => none

end Sys2Proof.Safety
end

