-- ==== Sys2Proof/Certificates/Slice0/Obligations.lean ====
section
/-! DEFINITION. The statements for the provers. Numbers in them are the spec's own, not the model's named constants. -/

open Sys2Proof Sys2Proof.Machine Sys2Proof.Safety

/-! ### Encoding -/

/-- Words written out from R89's table, one or more for each family, decode to their rows (30_encoding R88, R89). -/
def Obligations.WrittenWordsDecode : Prop :=
  decodeW 0x055 = .cpScanASync ∧ decodeW 0x0FC = .cpScanASkip 0xFC ∧ decodeW 0x155 = .cpScanBResync ∧
  decodeW 0x255 = .cpPayloadByte 0x55 ∧ decodeW 0x475 = .cpCsumLo 0x75 ∧ decodeW 0x612 = .cpBadState 6 0x12 ∧
  decodeW 0x820 = .ibHdrASync ∧ decodeW 0x920 = .ibHdrBFail 0x20 ∧ decodeW 0xB05 = .ibIntHi 0x05 ∧
  decodeW 0xDF3 = .ibCheckB 0xF3 ∧ decodeW 0xE20 = .ibBadState 6 0x20 ∧
  decodeTableWord 16 0xA40 = some (.ibIntLo 0x40) ∧ decodeTableWord 16 0x10A0 = none ∧
  decodeTableWord 8 0 = some .mapCp ∧ decodeTableWord 8 1 = some .mapIb

/-- Decoding the bytes of any well-formed instruction gives it back, with every operand (R89, R170; the bytes' layout is
the model's choice, log entry 7). -/
def Obligations.EncodedInstructionsDecodeBack : Prop :=
  ∀ i : Instr, i.wf = true → decodeBytes (encode i) = .ok i

/-- Every decode word selects a well-formed parser rule whose own word it is (R89, R91). -/
def Obligations.EveryWordIsOneRulesWord : Prop :=
  ∀ w : BitVec 12, (decodeW w).wf = true ∧ encodeW (decodeW w) = some w

/-- R89: the first row of the table that matches W is the row the decoder selects, there is one for every W, the two
BAD_STATE rows are selected from unused codes alone, and no W selects a mapper row, which PROTO alone does. -/
def Obligations.FirstMatchingRowApplies : Prop :=
  (∀ w : BitVec 12, (firstRow w).map MapRow.mnemonic = some (decodeW w).mnemonic ∧ (decodeW w).isMapper = false ∧
    ((decodeW w).mnemonic = "CP_BAD_STATE" → 5 ≤ (wSt w).toNat) ∧
    ((decodeW w).mnemonic = "IB_BAD_STATE" → 6 ≤ (wSt w).toNat)) ∧
  (∀ s : State, Accepts s.proto s.activeCode s.nextEdge.inData s →
    Runs s (decodeW (s.proto.bit ++ s.activeCode ++ s.nextEdge.inData))) ∧
  decodeSelector Proto.cp.bit = .mapCp ∧ decodeSelector Proto.ib.bit = .mapIb

/-- The byte decoder refuses, by name, no byte, more than two bytes, and a two-byte word with a bit above bit 11 (the
model's choice, log entry 7). -/
def Obligations.MalformedBytesAreRefusedByName : Prop :=
  decodeBytes [] = .error .empty ∧
  (∀ (a b c : Byte) (l : List Byte), decodeBytes (a :: b :: c :: l) = .error .tooLong) ∧
  (∀ lo hi : Byte, 16 ≤ hi.toNat → decodeBytes [lo, hi] = .error .bitsAboveW)

/-! ### One step -/

/-- R60: an accepting step applies the one rule that the decode word selects to the byte, a rule of the active parser; a
step with `rst` = 1 or `in_valid` = 0 accepts none. When the word's bytes decode to i, the step is `exec i` on the state
with the ports sampled. -/
def Obligations.StepRunsTheDecodedRule : Prop :=
  ∀ s : State,
    (s.nextEdge.rst = false → s.nextEdge.inValid = true →
      ∃ i : Instr, decodeBytes (wBytes (s.decodeWord s.nextEdge.inData)) = .ok i ∧ i.wf = true ∧
        parserOf i = some s.proto ∧ step s = exec i { s with inputs := s.inputs.tail, edge := s.edge + 1 }) ∧
    (s.nextEdge.rst = true → step s = .next (s.afterEdge.resetStep s.nextEdge.protoSel)) ∧
    (s.nextEdge.rst = false → s.nextEdge.inValid = false → step s = .next (quiet s.afterEdge))

/-- A word of the opcode table placed by `withFetchWord` is what the next step runs; for a mapper row it is the row that
the step's `Emit` runs (the model's own, log entry 6). -/
def Obligations.PlacedWordsRunNext : Prop :=
  (∀ (s : State) (w : BitVec 12),
    step (s.withFetchWord 16 w.toNat) = exec (decodeW w) (s.withFetchWord 16 w.toNat).afterEdge) ∧
  (∀ (s : State) (p : Proto), ∃ t, step (s.withFetchWord 8 p.bit.toNat) = .next t ∧
    t.proto = p ∧ t.outValid = true ∧ t.report = mapReport p t.fr ∧
    t.fr = match p with
      | .cp => cpDecode s.cbuf
      | .ib => s.ich)

/-- R210, R43: what a step with `rst` = 1 leaves, from any state and whatever `in_valid` and `in_data` are. -/
def Obligations.ResetStepWritesTheResetValues : Prop :=
  ∀ s : State, s.nextEdge.rst = true →
    step s = .next
      { proto := s.nextEdge.protoSel
        cst := 0
        ccnt := 0
        cbuf := #v[0, 0, 0, 0, 0, 0, 0, 0, 0, 0, 0, 0, 0, 0]
        csum := 0
        ctrh := 0
        ist := 0
        iidx := 0
        iacc := 0xFFFF
        ich := #v[0, 0, 0, 0, 0, 0, 0, 0, 0, 0, 0, 0, 0, 0]
        iwcs := 0
        fr := #v[0, 0, 0, 0, 0, 0, 0, 0, 0, 0, 0, 0, 0, 0]
        report := #v[0, 0, 0, 0, 0, 0]
        outValid := false
        evCsumErr := false
        evTestMismatch := false
        inputs := s.inputs.tail
        edge := s.edge + 1 }

/-- `State.reset` is what a reset step with `proto_sel` = 0 leaves, with no port sample listed; the choice of
`proto_sel` = 0 is the model's (log entry 3). -/
def Obligations.ResetStateIsTheCustomProtocolReset : Prop :=
  (∀ s : State, s.inputs = [resetEdge .cp] →
    step s = .next { State.reset with edge := s.edge + 1 }) ∧
  State.reset.inputs = [] ∧ State.reset.edge = 0

/-- R211: any number of steps with `rst` = 1 leaves what the last of them alone leaves. -/
def Obligations.RepeatedResetsActAsTheLast : Prop :=
  ∀ (es : List Edge) (e : Edge) (s : State), (∀ x ∈ es, x.rst = true) → e.rst = true →
    runSteps (es.length + 1) { s with inputs := es ++ [e] } =
      .next { State.resetWith e.protoSel with edge := s.edge + es.length + 1 } ∧
    step { s with inputs := [e] } = .next { State.resetWith e.protoSel with edge := s.edge + 1 }

/-- R61: a step with `rst` = 0 and `in_valid` = 0 changes nothing but the pulses, which become 0. -/
def Obligations.IdleStepOnlyClearsThePulses : Prop :=
  ∀ s : State, s.nextEdge.rst = false → s.nextEdge.inValid = false →
    step s = .next { s with
      outValid := false, evCsumErr := false, evTestMismatch := false, inputs := s.inputs.tail, edge := s.edge + 1 }

/-- R218, R210: with `rst` = 0 a step does not depend on `proto_sel`; with `rst` = 1 it does not depend on `in_valid`
or `in_data`. -/
def Obligations.StepIgnoresUnsampledPorts : Prop :=
  (∀ (s : State) (e : Edge) (p : Proto) (es : List Edge), e.rst = false →
    step { s with inputs := e :: es } = step { s with inputs := { e with protoSel := p } :: es }) ∧
  (∀ (s : State) (e : Edge) (v : Bool) (b : Byte) (es : List Edge), e.rst = true →
    step { s with inputs := e :: es } = step { s with inputs := { e with inValid := v, inData := b } :: es })

/-- R24: the block never refuses a byte and never stops: from every state, with any port values, a step answers a next
state, and `in_ready` is 1. -/
def Obligations.EveryStepAnswersANextState : Prop :=
  ∀ s : State, s.outputs.inReady = true ∧ ∃ t, step s = .next t

/-- R23, R36: each output port is driven by the state element of its name, in R36's order, and `in_ready` is 1. -/
def Obligations.OutputPortsShowTheirRegisters : Prop :=
  ∀ s : State, s.outputs.inReady = true ∧ s.outputs.outValid = s.outValid ∧
    #v[s.outputs.leftX, s.outputs.leftY, s.outputs.rightX, s.outputs.rightY, s.outputs.aux1, s.outputs.aux2] = s.report ∧
    s.outputs.frame = s.fr ∧ s.outputs.evCsumErr = s.evCsumErr ∧ s.outputs.evTestMismatch = s.evTestMismatch

/-! ### The Custom-Protocol rules -/

/-- R111, R112: in CP_SCAN_A the byte 0x55 leads to CP_SCAN_B and any other changes no parser register. -/
def Obligations.CpScanARules : Prop :=
  (∀ (s : State) (b : Byte), Accepts .cp 0 b s →
    (b = 0x55 → Runs s .cpScanASync) ∧ (b ≠ 0x55 → Runs s (.cpScanASkip b))) ∧
  (∀ s : State, exec .cpScanASync s = .next { quiet s with cst := 1 }) ∧
  (∀ (b : Byte) (s : State), exec (.cpScanASkip b) s = .next (quiet s))

/-- R113, R114, R115: in CP_SCAN_B the byte 0xFC starts a payload, 0x55 is a new HEADER_A, any other is dropped. -/
def Obligations.CpScanBRules : Prop :=
  (∀ (s : State) (b : Byte), Accepts .cp 1 b s →
    (b = 0xFC → Runs s .cpScanBOk) ∧ (b = 0x55 → Runs s .cpScanBResync) ∧
    (b ≠ 0xFC → b ≠ 0x55 → Runs s (.cpScanBFail b))) ∧
  (∀ s : State, exec .cpScanBOk s = .next { quiet s with cst := 2, ccnt := 0, csum := 0 }) ∧
  (∀ s : State, exec .cpScanBResync s = .next { quiet s with cst := 1 }) ∧
  (∀ (b : Byte) (s : State), exec (.cpScanBFail b) s = .next { quiet s with cst := 0 })

/-- R116, for the operands the rule names (CCNT 0 to 13): any byte is stored at CCNT and summed, and the 14th ends the
payload. -/
def Obligations.CpPayloadByteRule : Prop :=
  (∀ (s : State) (b : Byte), Accepts .cp 2 b s → Runs s (.cpPayloadByte b)) ∧
  (∀ (b : Byte) (s : State) (h : s.ccnt.toNat < 14),
    exec (.cpPayloadByte b) s = .next { quiet s with
      cbuf := s.cbuf.set s.ccnt.toNat b h
      csum := s.csum + b.setWidth 16
      ccnt := s.ccnt + 1
      cst := if s.ccnt.toNat = 13 then 3 else s.cst })

/-- R117: the first trailer byte is kept in CTRH. -/
def Obligations.CpCsumHiRule : Prop :=
  (∀ (s : State) (b : Byte), Accepts .cp 3 b s → Runs s (.cpCsumHi b)) ∧
  (∀ (b : Byte) (s : State), exec (.cpCsumHi b) s = .next { quiet s with ctrh := b, cst := 4 })

/-- R118, R120: the second trailer byte. When CSUM is the trailer 256·CTRH + b, the decoded payload is emitted, with a
test mismatch exactly when the raw test word differs from raw word 2; otherwise the frame is dropped with EV_CSUM_ERR. -/
def Obligations.CpCsumLoRule : Prop :=
  (∀ (s : State) (b : Byte), Accepts .cp 4 b s → Runs s (.cpCsumLo b)) ∧
  (∀ (b : Byte) (s : State), s.csum.toNat = 256 * s.ctrh.toNat + b.toNat →
    exec (.cpCsumLo b) s = .next { quiet s with
      cst := 0
      fr := cpDecode s.cbuf
      report := mapReport s.proto (cpDecode s.cbuf)
      outValid := true
      evTestMismatch := !(s.cbuf[12] == s.cbuf[4] && s.cbuf[13] == s.cbuf[5]) }) ∧
  (∀ (b : Byte) (s : State), s.csum.toNat ≠ 256 * s.ctrh.toNat + b.toNat →
    exec (.cpCsumLo b) s = .next { quiet s with cst := 0, evCsumErr := true })

/-- R119 (with R81): the emitted frame, slot by slot. -/
def Obligations.CpDecodeSlots : Prop :=
  ∀ p : Payload,
    (∀ k : Fin 6, ((cpDecode p)[k.val]).toNat =
      (256 * (p[2 * k.val]'(by show _ < 14; omega)).toNat + (p[2 * k.val + 1]'(by show _ < 14; omega)).toNat + 65536 - 1000) % 65536) ∧
    ((cpDecode p)[6]).toNat = 256 * (p[12]).toNat + (p[13]).toNat ∧
    (∀ k : Fin 14, 7 ≤ k.val → (cpDecode p)[k.val] = 0)

/-- R121, R149: the effects of the two BAD_STATE rows. -/
def Obligations.BadStateRules : Prop :=
  (∀ (s : State) (st : BitVec 3) (b : Byte), 5 ≤ st.toNat → Accepts .cp st b s → Runs s (.cpBadState st b)) ∧
  (∀ (s : State) (st : BitVec 3) (b : Byte), 6 ≤ st.toNat → Accepts .ib st b s → Runs s (.ibBadState st b)) ∧
  (∀ (st : BitVec 3) (b : Byte) (s : State),
    exec (.cpBadState st b) s = .next { quiet s with cst := if b = 0x55 then 1 else 0 }) ∧
  (∀ (st : BitVec 3) (b : Byte) (s : State),
    exec (.ibBadState st b) s =
      .next (if b = 0x20 then { quiet s with iacc := 0xFFDF, ist := 1 } else { quiet s with ist := 0 }))

/-- R90: in an unused state code the byte is processed as if the state were the initial one. -/
def Obligations.UnusedCodesActAsInitial : Prop :=
  (∀ (s : State) (st : BitVec 3) (b : Byte), 5 ≤ st.toNat → Accepts .cp st b s → step s = step { s with cst := 0 }) ∧
  (∀ (s : State) (st : BitVec 3) (b : Byte), 6 ≤ st.toNat → Accepts .ib st b s → step s = step { s with ist := 0 })

/-! ### The IBUS rules -/

/-- R141, R142: in HDR_A the byte 0x20 starts the checksum and leads to HDR_B; any other is ignored. -/
def Obligations.IbHdrARules : Prop :=
  (∀ (s : State) (b : Byte), Accepts .ib 0 b s →
    (b = 0x20 → Runs s .ibHdrASync) ∧ (b ≠ 0x20 → Runs s (.ibHdrASkip b))) ∧
  (∀ s : State, exec .ibHdrASync s = .next { quiet s with iacc := 0xFFDF, ist := 1 }) ∧
  (∀ (b : Byte) (s : State), exec (.ibHdrASkip b) s = .next (quiet s))

/-- R143, R144: in HDR_B the byte is subtracted and IIDX set to 0 in either case; only 0x40 leads to INT_LO, and any
other byte, 0x20 among them, leads to HDR_A. -/
def Obligations.IbHdrBRules : Prop :=
  (∀ (s : State) (b : Byte), Accepts .ib 1 b s →
    (b = 0x40 → Runs s .ibHdrBOk) ∧ (b ≠ 0x40 → Runs s (.ibHdrBFail b))) ∧
  (∀ s : State, exec .ibHdrBOk s = .next { quiet s with iacc := s.iacc - 0x40, iidx := 0, ist := 2 }) ∧
  (∀ (b : Byte) (s : State),
    exec (.ibHdrBFail b) s = .next { quiet s with iacc := s.iacc - b.setWidth 16, iidx := 0, ist := 0 })

/-- R145, for the operands the rule names (IIDX 0 to 13): the whole slot is written. -/
def Obligations.IbIntLoRule : Prop :=
  (∀ (s : State) (b : Byte), Accepts .ib 2 b s → Runs s (.ibIntLo b)) ∧
  (∀ (b : Byte) (s : State) (h : s.iidx.toNat < 14),
    exec (.ibIntLo b) s = .next { quiet s with
      ich := s.ich.set s.iidx.toNat (b.setWidth 16) h
      iacc := s.iacc - b.setWidth 16
      ist := 3 })

/-- R146, for IIDX 0 to 13: the high byte is ORed in, and the 14th channel leads to CHECK_A. -/
def Obligations.IbIntHiRule : Prop :=
  (∀ (s : State) (b : Byte), Accepts .ib 3 b s → Runs s (.ibIntHi b)) ∧
  (∀ (b : Byte) (s : State) (h : s.iidx.toNat < 14),
    exec (.ibIntHi b) s = .next { quiet s with
      ich := s.ich.set s.iidx.toNat (s.ich[s.iidx.toNat] ||| (b.setWidth 16 <<< 8)) h
      iacc := s.iacc - b.setWidth 16
      iidx := s.iidx + 1
      ist := if s.iidx.toNat = 13 then 4 else 2 })

/-- R147: the whole of IWCS is written and nothing is subtracted. -/
def Obligations.IbCheckARule : Prop :=
  (∀ (s : State) (b : Byte), Accepts .ib 4 b s → Runs s (.ibCheckA b)) ∧
  (∀ (b : Byte) (s : State), exec (.ibCheckA b) s = .next { quiet s with iwcs := b.setWidth 16, ist := 5 })

/-- R148: with C = IWCS OR (b << 8), the 14 slots are emitted when C is IACC, else the frame is dropped with EV_CSUM_ERR;
in every case HDR_A and 0xFFFF, and IWCS keeps C (the rule's corner cases; log entry 10). -/
def Obligations.IbCheckBRule : Prop :=
  (∀ (s : State) (b : Byte), Accepts .ib 5 b s → Runs s (.ibCheckB b)) ∧
  (∀ (b : Byte) (s : State), s.iwcs ||| (b.setWidth 16 <<< 8) = s.iacc →
    exec (.ibCheckB b) s = .next { quiet s with
      ist := 0
      iacc := 0xFFFF
      iwcs := s.iwcs ||| (b.setWidth 16 <<< 8)
      fr := s.ich
      report := mapReport s.proto s.ich
      outValid := true }) ∧
  (∀ (b : Byte) (s : State), s.iwcs ||| (b.setWidth 16 <<< 8) ≠ s.iacc →
    exec (.ibCheckB b) s = .next { quiet s with
      ist := 0
      iacc := 0xFFFF
      iwcs := s.iwcs ||| (b.setWidth 16 <<< 8)
      evCsumErr := true })

/-- R148's "IWCS keeps C until the next rule R147" (log entry 10): no step writes IWCS but a reset and an accepted byte in CHECK_A or
CHECK_B, and a byte accepted in CHECK_A writes the whole of it. -/
def Obligations.WireChecksumIsKeptUntilCheckA : Prop :=
  ∀ s t : State, step s = .next t → s.nextEdge.rst = false →
    (¬(s.proto = .ib ∧ s.nextEdge.inValid = true ∧ (s.ist = 4 ∨ s.ist = 5)) → t.iwcs = s.iwcs) ∧
    (s.proto = .ib → s.nextEdge.inValid = true → s.ist = 4 → t.iwcs.toNat = s.nextEdge.inData.toNat) ∧
    (s.proto = .ib → s.nextEdge.inValid = true → s.ist = 5 →
      t.iwcs = s.iwcs ||| (s.nextEdge.inData.setWidth 16 <<< 8))

/-- R85, R145, R146: a low byte and then a high byte leave 256·hi + lo in the slot, whatever it held before. -/
def Obligations.IbBytePairFillsItsSlot : Prop :=
  ∀ (s : State) (lo hi : Byte) (h : s.iidx.toNat < 14), ∃ t u,
    exec (.ibIntLo lo) s = .next t ∧ exec (.ibIntHi hi) t = .next u ∧
    (∀ k : Fin 14, (u.ich[k]).toNat =
      if k.val = s.iidx.toNat then 256 * hi.toNat + lo.toNat else (s.ich[k]).toNat) ∧
    u.iacc = s.iacc - lo.setWidth 16 - hi.setWidth 16 ∧ u.iidx.toNat = s.iidx.toNat + 1

/-- CCNT or IIDX of 14 or 15 while a slot is to be written (no run reaches this): the register file's contents are free,
and every other effect of R116, R145 and R146 happens (the model's choice, log entry 4). -/
def Obligations.MissingSlotsLeaveTheRestDefined : Prop :=
  (∀ (b : Byte) (s : State), 14 ≤ s.ccnt.toNat → ∃ buf,
    exec (.cpPayloadByte b) s = .next { quiet s with cbuf := buf, ccnt := s.ccnt + 1 }) ∧
  (∀ (b : Byte) (s : State), 14 ≤ s.iidx.toNat → ∃ ch,
    exec (.ibIntLo b) s = .next { quiet s with ich := ch, iacc := s.iacc - b.setWidth 16, ist := 3 }) ∧
  (∀ (b : Byte) (s : State), 14 ≤ s.iidx.toNat → ∃ ch,
    exec (.ibIntHi b) s =
      .next { quiet s with ich := ch, iacc := s.iacc - b.setWidth 16, iidx := s.iidx + 1, ist := 2 })

/-! ### The Channel Mapper -/

/-- R171, R173: each axis of a CP report is min(v, 1022) − 511 of its slot v. -/
def Obligations.CpAxesAreClampedAndCentred : Prop :=
  ∀ f : Frame, ∀ j : Fin 6, ((mapReport .cp f)[j]).toInt =
    min ((#v[f[3], f[2], f[0], f[1], f[4], f[5]][j]).toNat : Int) 1022 - 511

/-- R172, R173: each axis of an IB report is its slot v less 1500, read as two's complement modulo 2^16. -/
def Obligations.IbAxesAreCentredModulo : Prop :=
  ∀ f : Frame, ∀ j : Fin 6, ((mapReport .ib f)[j]).toInt =
    let v : Int := (#v[f[3], f[2], f[0], f[1], f[4], f[5]][j]).toNat
    if v ≤ 34267 then v - 1500 else v - 1500 - 65536

/-- R175: the ranges of the axes. -/
def Obligations.AxisRanges : Prop :=
  ∀ f : Frame, ∀ j : Fin 6,
    (-511 ≤ ((mapReport .cp f)[j]).toInt ∧ ((mapReport .cp f)[j]).toInt ≤ 511) ∧
    ((-500 ≤ ((mapReport .ib f)[j]).toInt ∧ ((mapReport .ib f)[j]).toInt ≤ 500) ↔
      (1000 ≤ (#v[f[3], f[2], f[0], f[1], f[4], f[5]][j]).toNat ∧
        (#v[f[3], f[2], f[0], f[1], f[4], f[5]][j]).toNat ≤ 2000))

/-- R174, R176: the report depends on PROTO and slots 0 to 5 alone. -/
def Obligations.ReportDependsOnSixSlots : Prop :=
  ∀ (p : Proto) (f g : Frame), (∀ k : Fin 14, k.val < 6 → f[k] = g[k]) → mapReport p f = mapReport p g

/-- R221 (with R119, R171): an axis from its wire word w is +511 for w below 1000, else min(w − 1000, 1022) − 511. -/
def Obligations.CpAxisFromItsWireWord : Prop :=
  ∀ (p : Payload) (j : Fin 6), ((mapReport .cp (cpDecode p))[j]).toInt =
    let w : Int := (cpWord p (#v[3, 2, 0, 1, 4, 5][j])).toNat
    if w < 1000 then 511 else min (w - 1000) 1022 - 511

/-- The mapper rows as instructions of their own act on the frame register and write REPORT alone (the model's choice,
log entry 5). -/
def Obligations.MapperRowsWriteOnlyTheReport : Prop :=
  ∀ s : State, exec .mapCp s = .next { s with report := mapReport .cp s.fr } ∧
    exec .mapIb s = .next { s with report := mapReport .ib s.fr }

/-- R170, R37: `Emit` writes FR, runs the mapper row that PROTO selects on it and raises OUT_VALID. -/
def Obligations.EmitRunsTheMapperRowOfProto : Prop :=
  ∀ (f : Frame) (s : State), ∃ m,
    exec (decodeSelector s.proto.bit) { s with fr := f } = .next m ∧ s.emit f = { m with outValid := true } ∧
    s.emit f = { s with fr := f, report := mapReport s.proto f, outValid := true }

/-! ### Rules of the whole machine -/

/-- R21: PROTO is written in a reset step alone, with `proto_sel`; 0 selects the CP rules and 1 the IB rules. -/
def Obligations.ProtoIsWrittenOnlyInReset : Prop :=
  ∀ s t : State, step s = .next t →
    (s.nextEdge.rst = true → t.proto = s.nextEdge.protoSel) ∧ (s.nextEdge.rst = false → t.proto = s.proto) ∧
    parserOf (decodeW (s.decodeWord s.nextEdge.inData)) = some s.proto

/-- R39: the parser that PROTO does not select takes no transition: without a reset its registers never change, and at
their reset values they stay there at every step. -/
def Obligations.InactiveParserHolds : Prop :=
  ∀ s t : State, step s = .next t →
    (s.proto = .cp → s.nextEdge.rst = false ∨ IbAtRest s →
      t.ist = s.ist ∧ t.iidx = s.iidx ∧ t.iacc = s.iacc ∧ t.ich = s.ich ∧ t.iwcs = s.iwcs) ∧
    (s.proto = .ib → s.nextEdge.rst = false ∨ CpAtRest s →
      t.cst = s.cst ∧ t.ccnt = s.ccnt ∧ t.cbuf = s.cbuf ∧ t.csum = s.csum ∧ t.ctrh = s.ctrh) ∧
    ((s.proto = .cp → IbAtRest s) → (s.proto = .ib → CpAtRest s) →
      (t.proto = .cp → IbAtRest t) ∧ (t.proto = .ib → CpAtRest t))

/-- R70: without a reset, FR and REPORT change only in a step that leaves OUT_VALID = 1, and then the report is the
mapper's of that frame. -/
def Obligations.FrameAndReportChangeTogether : Prop :=
  ∀ s t : State, step s = .next t → s.nextEdge.rst = false →
    (t.outValid = false → t.fr = s.fr ∧ t.report = s.report) ∧
    (t.outValid = true → t.report = mapReport t.proto t.fr)

/-- R37, R38 with R118, R148: exactly when each pulse is 1 after a step; in every other step it is 0. -/
def Obligations.PulsesAreSetExactlyByTheirEvents : Prop :=
  ∀ s t : State, step s = .next t →
    let b := s.nextEdge.inData
    let last := s.nextEdge.rst = false ∧ s.nextEdge.inValid = true
    let cpLast := last ∧ s.proto = .cp ∧ s.cst = 4
    let ibLast := last ∧ s.proto = .ib ∧ s.ist = 5
    (t.outValid = true ↔ (cpLast ∧ s.csum = cat s.ctrh b) ∨ (ibLast ∧ orHigh s.iwcs b = s.iacc)) ∧
    (t.evCsumErr = true ↔ (cpLast ∧ s.csum ≠ cat s.ctrh b) ∨ (ibLast ∧ orHigh s.iwcs b ≠ s.iacc)) ∧
    (t.evTestMismatch = true ↔ cpLast ∧ s.csum = cat s.ctrh b ∧ cpWord s.cbuf 6 ≠ cpWord s.cbuf 2)

/-- R194: the pulses that never stand together, after any step from any state. -/
def Obligations.PulsesExcludeEachOther : Prop :=
  ∀ s t : State, step s = .next t →
    ¬(t.evCsumErr = true ∧ t.outValid = true) ∧ (t.evTestMismatch = true → t.outValid = true) ∧
    (t.proto = .ib → t.evTestMismatch = false) ∧
    (s.nextEdge.rst = true → t.outValid = false ∧ t.evCsumErr = false ∧ t.evTestMismatch = false)

/-- R190, R192, R193: the trace of events and the pulses agree, for every rule from every state. -/
def Obligations.EventTraceMatchesThePulses : Prop :=
  ∀ (i : Instr) (s t : State), i.isMapper = false → exec i s = .next t →
    (Event.csumMismatch ∈ events i s ↔ t.evCsumErr = true) ∧
    (Event.testMismatch ∈ events i s ↔ t.evTestMismatch = true) ∧
    (t.evCsumErr = true → t.fr = s.fr ∧ t.report = s.report) ∧
    (t.evTestMismatch = true → t.outValid = true)

/-- R191: a byte that is not the expected header byte, in a header-search state, is a framing error of the trace; the
parser stays in or returns to its search, and no output changes but the clearing of the pulses. -/
def Obligations.FramingErrorsAreSilent : Prop :=
  ∀ (p : Proto) (st : BitVec 3) (b : Byte) (s : State), Accepts p st b s →
    (p = .cp ∧ st = 0 ∧ b ≠ 0x55) ∨ (p = .cp ∧ st = 1 ∧ b ≠ 0xFC) ∨
      (p = .ib ∧ st = 0 ∧ b ≠ 0x20) ∨ (p = .ib ∧ st = 1 ∧ b ≠ 0x40) →
    edgeEvents s.nextEdge s = [.framingError] ∧
    ∃ t, step s = .next t ∧ (t.activeCode = 0 ∨ t.activeCode = 1) ∧
      t.outputs = { s.outputs with outValid := false, evCsumErr := false, evTestMismatch := false }

/-- R90: from any state, legal or not, a reset or an accepting step leaves a used code in the active parser's register. -/
def Obligations.StepsWriteOnlyUsedCodes : Prop :=
  ∀ s t : State, step s = .next t → s.nextEdge.rst = true ∨ s.nextEdge.inValid = true →
    (t.proto = .cp → t.cst.toNat ≤ 4) ∧ (t.proto = .ib → t.ist.toNat ≤ 5)

/-- The reset state of either protocol is a good state (R43). -/
def Obligations.ResetIsAGoodState : Prop := ∀ p : Proto, Inv (State.resetWith p)

/-- Every step keeps the invariant: position and counters (R25, R26, R30, R31), the running checksums as the sums of the
bytes accepted so far (R28, R32, R86), the other parser at rest (R39), the pulses (R194), the report as the mapper's of
the frame (R37), the zero tail of a CP frame (R35). -/
def Obligations.EveryStepKeepsTheInvariant : Prop :=
  ∀ s t : State, Inv s → step s = .next t → Inv t

/-- R40, R69, R92: once a header is confirmed, 16 (CP) or 30 (IB) bytes remain, and each accepted byte, whatever its
value, is one of them, until the parser is back at its search; an idle step keeps their number. -/
def Obligations.FramesTakeAFixedNumberOfBytes : Prop :=
  (∀ s : State, Accepts .cp 1 0xFC s → ∃ t, step s = .next t ∧ bytesLeft t = 16) ∧
  (∀ s : State, Accepts .ib 1 0x40 s → ∃ t, step s = .next t ∧ bytesLeft t = 30) ∧
  (∀ s : State, Inv s → 0 < bytesLeft s → s.nextEdge.rst = false → ∃ t, step s = .next t ∧
    bytesLeft t = (if s.nextEdge.inValid then bytesLeft s - 1 else bytesLeft s) ∧
    (bytesLeft t = 0 → Searching t))

/-! ### Frames and streams -/

/-- R80 to R83, R111 to R120, R122: from CP_SCAN_A a packet with any payload p and any trailer w takes 18 bytes and ends
in CP_SCAN_A; it is emitted, decoded and mapped, exactly when w is the sum of its payload, and dropped otherwise. -/
def Obligations.CpPacketEmitsExactlyWhenValid : Prop :=
  ∀ (s : State) (p : Payload) (w : Word) (rest : List Edge), s.proto = .cp → s.cst = 0 →
    s.inputs = feed (cpPacket p w) ++ rest →
    ∃ t, runSteps 18 s = .next t ∧ t.proto = .cp ∧ t.cst = 0 ∧ t.inputs = rest ∧
      (w = cpSum p.toList → t.outValid = true ∧ t.evCsumErr = false ∧ t.fr = cpDecode p ∧
        t.report = mapReport .cp (cpDecode p) ∧ (t.evTestMismatch = true ↔ cpWord p 6 ≠ cpWord p 2)) ∧
      (w ≠ cpSum p.toList → t.outValid = false ∧ t.evCsumErr = true ∧ t.evTestMismatch = false ∧
        t.fr = s.fr ∧ t.report = s.report)

/-- R84 to R86, R141 to R148, R150: from HDR_A a frame with any channels c and any checksum w takes 32 bytes and ends in
HDR_A; FR becomes c, whatever ICH held, exactly when w is 0xFFFF less the 30 bytes before it, and it is dropped
otherwise. -/
def Obligations.IbFrameEmitsExactlyWhenValid : Prop :=
  ∀ (s : State) (c : Frame) (w : Word) (rest : List Edge), s.proto = .ib → s.ist = 0 →
    s.inputs = feed (ibfWith c w) ++ rest →
    ∃ t, runSteps 32 s = .next t ∧ t.proto = .ib ∧ t.ist = 0 ∧ t.iacc = 0xFFFF ∧ t.iidx = 14 ∧
      t.inputs = rest ∧ t.evTestMismatch = false ∧
      (w = ibSum (ibBody c) → t.outValid = true ∧ t.evCsumErr = false ∧ t.fr = c ∧ t.report = mapReport .ib c) ∧
      (w ≠ ibSum (ibBody c) → t.outValid = false ∧ t.evCsumErr = true ∧ t.fr = s.fr ∧ t.report = s.report)

/-- R122(c), R150(c), R217: changing one byte changes a sum of bytes, the CP checksum when it is one of the payload's
first 14, and the IB checksum; changing a checksum byte changes the wire checksum. -/
def Obligations.ChecksumsSeeEverySingleByte : Prop :=
  (∀ (l r : List Byte) (a b : Byte), a ≠ b →
    byteSum (l ++ a :: r) ≠ byteSum (l ++ b :: r) ∧
    (l.length < 14 → cpSum (l ++ a :: r) ≠ cpSum (l ++ b :: r)) ∧
    ibSum (l ++ a :: r) ≠ ibSum (l ++ b :: r)) ∧
  (∀ a b c d : Byte, a ≠ c ∨ b ≠ d → cat a b ≠ cat c d)

/-- R217: bytes in another order have the same sum and the same IB checksum, and the same CP checksum when they are a
payload's 14 bytes, or fewer. -/
def Obligations.ChecksumsDoNotSeeTheOrder : Prop :=
  ∀ l r : List Byte, l.Perm r →
    byteSum l = byteSum r ∧ ibSum l = ibSum r ∧ (l.length ≤ 14 → cpSum l = byteSum l ∧ cpSum l = cpSum r)

/-- R61, R151, R42: edges with `in_valid` = 0, anywhere among the others, change nothing that lasts. -/
def Obligations.GapsInTheInputDoNotMatter : Prop :=
  ∀ (s : State) (es : List Edge), (∀ e ∈ es, e.rst = false) → ∃ t u,
    runSteps es.length { s with inputs := es } = .next t ∧
    runSteps (es.filter Edge.inValid).length { s with inputs := es.filter Edge.inValid } = .next u ∧
    hold t = hold u

/-- R44, R72: of two states of one protocol that wait for a header with the same frame and report on the ports, the same
edges, resets among them, make the same outputs, whatever the working registers held. -/
def Obligations.WorkingRegistersLeaveNoTrace : Prop :=
  ∀ (s s' : State) (es : List Edge), s.proto = s'.proto → Searching s → Searching s' →
    s.fr = s'.fr → s.report = s'.report → es ≠ [] → ∃ t t',
      runSteps es.length { s with inputs := es } = .next t ∧
      runSteps es.length { s' with inputs := es } = .next t' ∧ t.outputs = t'.outputs

/-- R219, R213: a step that raises `out_valid` leaves the parser waiting for a header, and from such a state `out_valid` is
not 1 before 18 edges for CP and 32 for IB, nor before 19 and 33 edges when the first of them is a reset. -/
def Obligations.ReportsAreAFrameApart : Prop :=
  (∀ s t : State, step s = .next t → t.outValid = true → Searching t) ∧
  (∀ (s t : State) (k : Nat), 0 < k → runSteps k s = .next t → t.outValid = true →
    (Searching s → (t.proto = .cp → 18 ≤ k) ∧ (t.proto = .ib → 32 ≤ k)) ∧
    (s.nextEdge.rst = true → (t.proto = .cp → 19 ≤ k) ∧ (t.proto = .ib → 33 ≤ k)))

/-- R114: in a run of bytes 0x55 before 0xFC the last one pairs with it: the payload starts after the 0xFC. -/
def Obligations.CpHeaderSurvivesAnyRunOf55 : Prop :=
  ∀ (n : Nat) (s : State) (rest : List Edge), s.proto = .cp → s.cst = 0 →
    s.inputs = feed (List.replicate (n + 1) 0x55 ++ [0xFC]) ++ rest →
    ∃ t, runSteps (n + 2) s = .next t ∧ t.cst = 2 ∧ t.ccnt = 0 ∧ t.csum = 0 ∧ t.inputs = rest

/-- R215: a byte 0x20 before a true IBUS header loses the header: after 20 20 40 the parser is in HDR_A, silently. -/
def Obligations.IbStrayHeaderLosesTheFrame : Prop :=
  ∀ (s : State) (rest : List Edge), s.proto = .ib → s.ist = 0 → s.inputs = feed [0x20, 0x20, 0x40] ++ rest →
    ∃ t, runSteps 3 s = .next t ∧ t.ist = 0 ∧ t.inputs = rest ∧
      t.outputs = { s.outputs with outValid := false, evCsumErr := false, evTestMismatch := false }
end

