-- ==== Sys2Proof/Laws/Decode.lean ====
section
/-! SUPPORT. The fields of a decode word, and the row each state code and byte select: the decoder's lemmas, so that no
later proof unfolds it. -/

namespace Sys2Proof

@[simp] theorem Proto.ofBit_bit (p : Proto) : Proto.ofBit p.bit = p := by cases p <;> rfl

/-- The bits of W, low to high: b, then ST, then PROTO (R88). -/
theorem mkW_getLsbD (p : Proto) (st : BitVec 3) (b : Byte) (i : Nat) :
    (mkW p st b).getLsbD i =
      if i < 8 then b.getLsbD i else if i - 8 < 3 then st.getLsbD (i - 8) else p.bit.getLsbD (i - 8 - 3) := by
  have h : (p.bit ++ st ++ b).getLsbD i =
      if i < 8 then b.getLsbD i else if i - 8 < 3 then st.getLsbD (i - 8) else p.bit.getLsbD (i - 8 - 3) := by
    simp only [BitVec.getLsbD_append]
  exact h

@[simp] theorem wProto_mkW (p : Proto) (st : BitVec 3) (b : Byte) : wProto (mkW p st b) = p := by
  have h : (mkW p st b).extractLsb' 11 1 = p.bit := by
    apply BitVec.eq_of_getLsbD_eq
    intro i hi
    simp [mkW_getLsbD, hi, show ¬ 11 + i < 8 by omega, show ¬ 11 + i - 8 < 3 by omega, show 11 + i - 8 - 3 = i by omega]
  simp [wProto, h]

@[simp] theorem wSt_mkW (p : Proto) (st : BitVec 3) (b : Byte) : wSt (mkW p st b) = st := by
  apply BitVec.eq_of_getLsbD_eq
  intro i hi
  simp [wSt, mkW_getLsbD, hi]

@[simp] theorem wByte_mkW (p : Proto) (st : BitVec 3) (b : Byte) : wByte (mkW p st b) = b := by
  apply BitVec.eq_of_getLsbD_eq
  intro i hi
  simp [wByte, mkW_getLsbD, hi]

@[simp] theorem decodeW_mkW_cp (st : BitVec 3) (b : Byte) : decodeW (mkW .cp st b) = decodeCp st b := by
  simp [decodeW]

@[simp] theorem decodeW_mkW_ib (st : BitVec 3) (b : Byte) : decodeW (mkW .ib st b) = decodeIb st b := by
  simp [decodeW]

/-! The row of each state code and byte (R89). -/

theorem decodeCp_scanA_skip {b : Byte} (h : b ≠ 0x55#8) : decodeCp 0#3 b = .cpScanASkip b :=
  (if_pos rfl).trans (if_neg h)

theorem decodeCp_scanB_fail {b : Byte} (h : b ≠ 0xFC#8) (h' : b ≠ 0x55#8) : decodeCp 1#3 b = .cpScanBFail b :=
  (if_neg (by decide)).trans ((if_pos rfl).trans ((if_neg h).trans (if_neg h')))

@[simp] theorem decodeCp_scanA_sync : decodeCp 0#3 0x55#8 = .cpScanASync := rfl
@[simp] theorem decodeCp_scanB_ok : decodeCp 1#3 0xFC#8 = .cpScanBOk := rfl
@[simp] theorem decodeCp_scanB_resync : decodeCp 1#3 0x55#8 = .cpScanBResync := rfl
@[simp] theorem decodeCp_payload (b : Byte) : decodeCp 2#3 b = .cpPayloadByte b := rfl
@[simp] theorem decodeCp_csumHi (b : Byte) : decodeCp 3#3 b = .cpCsumHi b := rfl
@[simp] theorem decodeCp_csumLo (b : Byte) : decodeCp 4#3 b = .cpCsumLo b := rfl

theorem decodeCp_bad {st : BitVec 3} (h : 5 ≤ st.toNat) (b : Byte) : decodeCp st b = .cpBadState st b := by
  have n : ∀ c : BitVec 3, c.toNat ≤ 4 → st ≠ c := fun c hc e => by subst e; omega
  simp [decodeCp, n Params.cpScanA (by decide), n Params.cpScanB (by decide), n Params.cpPayload (by decide),
    n Params.cpCsumHi (by decide), n Params.cpCsumLo (by decide)]

theorem decodeIb_hdrA_skip {b : Byte} (h : b ≠ 0x20#8) : decodeIb 0#3 b = .ibHdrASkip b :=
  (if_pos rfl).trans (if_neg h)

theorem decodeIb_hdrB_fail {b : Byte} (h : b ≠ 0x40#8) : decodeIb 1#3 b = .ibHdrBFail b :=
  (if_neg (by decide)).trans ((if_pos rfl).trans (if_neg h))

@[simp] theorem decodeIb_hdrA_sync : decodeIb 0#3 0x20#8 = .ibHdrASync := rfl
@[simp] theorem decodeIb_hdrB_ok : decodeIb 1#3 0x40#8 = .ibHdrBOk := rfl
@[simp] theorem decodeIb_intLo (b : Byte) : decodeIb 2#3 b = .ibIntLo b := rfl
@[simp] theorem decodeIb_intHi (b : Byte) : decodeIb 3#3 b = .ibIntHi b := rfl
@[simp] theorem decodeIb_checkA (b : Byte) : decodeIb 4#3 b = .ibCheckA b := rfl
@[simp] theorem decodeIb_checkB (b : Byte) : decodeIb 5#3 b = .ibCheckB b := rfl

theorem decodeIb_bad {st : BitVec 3} (h : 6 ≤ st.toNat) (b : Byte) : decodeIb st b = .ibBadState st b := by
  have n : ∀ c : BitVec 3, c.toNat ≤ 5 → st ≠ c := fun c hc e => by subst e; omega
  simp [decodeIb, n Params.ibStHdrA (by decide), n Params.ibStHdrB (by decide), n Params.ibStIntLo (by decide),
    n Params.ibStIntHi (by decide), n Params.ibStCheckA (by decide), n Params.ibStCheckB (by decide)]

end Sys2Proof
end

