-- ==== Sys2Proof/Laws/Params.lean ====
section
/-! SUPPORT. The value of each parameter of 00_scope R8 as the spec states it, for simp: proofs compute with the numbers,
definitions name the parameters. -/

namespace Sys2Proof.Params

@[simp] theorem cpHeaderA_eq : cpHeaderA = 0x55#8 := rfl
@[simp] theorem cpHeaderB_eq : cpHeaderB = 0xFC#8 := rfl
@[simp] theorem cpPacketBytes_eq : cpPacketBytes = 18 := rfl
@[simp] theorem cpPayloadBytes_eq : cpPayloadBytes = 14 := rfl
@[simp] theorem cpSumBytes_eq : cpSumBytes = 14 := rfl
@[simp] theorem cpChannels_eq : cpChannels = 6 := rfl
@[simp] theorem cpWords_eq : cpWords = 7 := rfl
@[simp] theorem cpChannelOffset_eq : cpChannelOffset = 1000#16 := rfl
@[simp] theorem cpChannelMaximum_eq : cpChannelMaximum = 1022#16 := rfl
@[simp] theorem cpCenter_eq : cpCenter = 511#16 := rfl
@[simp] theorem ibHdrA_eq : ibHdrA = 0x20#8 := rfl
@[simp] theorem ibHdrB_eq : ibHdrB = 0x40#8 := rfl
@[simp] theorem ibChannels_eq : ibChannels = 14 := rfl
@[simp] theorem ibFrameBytes_eq : ibFrameBytes = 32 := rfl
@[simp] theorem ibCsumInit_eq : ibCsumInit = 0xFFFF#16 := rfl
@[simp] theorem ibCenter_eq : ibCenter = 1500#16 := rfl
@[simp] theorem frameSlots_eq : frameSlots = 14 := rfl

end Sys2Proof.Params

namespace Sys2Proof.Machine

@[simp] theorem cpHeader_eq : cpHeader = [0x55#8, 0xFC#8] := rfl

@[simp] theorem ibHeader_eq : ibHeader = [0x20#8, 0x40#8] := rfl

/-- The axis order of R173, with the slots as numbers. -/
theorem mapAxes_eq (t : Word → Word) (f : Frame) : mapAxes t f = #v[t f[3], t f[2], t f[0], t f[1], t f[4], t f[5]] := rfl

end Sys2Proof.Machine
end

