-- ==== Sys2Proof/Laws/Operands.lean ====
section
/-! SUPPORT. What each operand assembly, slot access and checksum computes. -/

namespace Sys2Proof.Machine

/-- 256·hi + lo (R11). -/
theorem cat_toNat (hi lo : Byte) : (cat hi lo).toNat = 256 * hi.toNat + lo.toNat := by
  have := lo.isLt
  simp only [cat, BitVec.toNat_append]
  rw [← Nat.shiftLeft_add_eq_or_of_lt (by omega), Nat.shiftLeft_eq]
  omega

@[simp] theorem zext16_toNat (b : Byte) : (zext16 b).toNat = b.toNat := by
  have := b.isLt
  simp only [zext16, BitVec.toNat_setWidth]
  omega

/-- A low byte and then a high byte ORed in give `hi ‖ lo` (R65, R146). -/
theorem orHigh_zext16 (lo hi : Byte) : orHigh (zext16 lo) hi = cat hi lo := by
  apply BitVec.eq_of_getLsbD_eq
  intro i h
  simp only [orHigh, zext16, cat, BitVec.getLsbD_or, BitVec.getLsbD_setWidth, BitVec.getLsbD_shiftLeft,
    BitVec.getLsbD_append]
  by_cases h8 : i < 8
  · simp [h8, h]
  · have : lo.getLsbD i = false := BitVec.getLsbD_of_ge _ _ (by omega)
    simp [h8, h, this]
    omega

@[simp] theorem cat_hiByte_loByte (v : Word) : cat (hiByte v) (loByte v) = v := by
  apply BitVec.eq_of_getLsbD_eq
  intro i h
  simp only [cat, hiByte, loByte, BitVec.getLsbD_append, BitVec.getLsbD_extractLsb']
  by_cases h8 : i < 8
  · simp [h8]
  · simp [h8, show 8 + (i - 8) = i by omega]
    omega

@[simp] theorem hiByte_zext16 (b : Byte) : hiByte (zext16 b) = 0 := by
  apply BitVec.eq_of_getLsbD_eq
  intro i h
  simp [hiByte, zext16]

@[simp] theorem loByte_zext16 (b : Byte) : loByte (zext16 b) = b := by
  apply BitVec.eq_of_getLsbD_eq
  intro i h
  simp [loByte, zext16, h]
  omega

theorem cbufWrite_of_lt (buf : Payload) (i : BitVec 4) (b : Byte) (h : i.toNat < 14) :
    cbufWrite buf i b = buf.set i.toNat b h := by simp [cbufWrite, h]

theorem ichRead_of_lt (ch : Channels) (i : BitVec 4) (h : i.toNat < 14) : ichRead ch i = ch[i.toNat] := by
  simp [ichRead, h]

theorem ichWrite_of_lt (ch : Channels) (i : BitVec 4) (v : Word) (h : i.toNat < 14) :
    ichWrite ch i v = ch.set i.toNat v h := by simp [ichWrite, h]

/-- A channel slot of the emitted frame (R119). -/
theorem cpDecode_channel (buf : Payload) (k : Fin Params.frameSlots) (h : k.val < Params.cpChannels) :
    (cpDecode buf)[k.val] = cpChannel buf ⟨k.val, Nat.lt_succ_of_lt h⟩ := by simp [cpDecode, h]

/-- The test slot of the emitted frame (R119). -/
theorem cpDecode_test (buf : Payload) : (cpDecode buf)[Params.cpChannels] = cpWord buf Params.cpTestSlot := by
  simp [cpDecode]

/-- The slots above the test slot (R119). -/
theorem cpDecode_zero (buf : Payload) (k : Fin Params.frameSlots) (h : Params.cpWords ≤ k.val) :
    (cpDecode buf)[k.val] = 0 := by
  have h' : Params.cpChannels < k.val := h
  simp [cpDecode, Nat.not_lt_of_lt h', Nat.ne_of_gt h']

/-- The frame that IB emits is ICH (R148). -/
@[simp] theorem ibFrame_eq (ch : Channels) : ibFrame ch = ch := rfl

@[simp] theorem byteSum_concat (l : List Byte) (b : Byte) : byteSum (l ++ [b]) = byteSum l + zext16 b := by
  simp [byteSum]

@[simp] theorem byteSum_nil : byteSum [] = 0 := rfl

@[simp] theorem cpSum_nil : cpSum [] = 0 := rfl

/-- Of at most CP_SUM_BYTES bytes, all are summed (R83). -/
theorem cpSum_of_le {l : List Byte} (h : l.length ≤ Params.cpSumBytes) : cpSum l = byteSum l := by
  rw [cpSum, List.take_of_length_le h]

/-- One payload byte more (R83): the running sum of R116 keeps the checksum of the bytes so far. -/
theorem cpSum_concat (l : List Byte) (b : Byte) (i : BitVec 4) (h : l.length = i.toNat) :
    cpSum (l ++ [b]) = cpSumStep (cpSum l) i b := by
  unfold cpSumStep cpSum
  split
  · next hi =>
    rw [List.take_of_length_le (by rw [List.length_append, List.length_singleton]; omega),
      List.take_of_length_le (by omega), byteSum_concat]
  · next hi => rw [List.take_append_of_le_length (by omega)]

/-- One summed byte more (R83). -/
theorem cpSum_concat_of_lt {l : List Byte} (b : Byte) (h : l.length < Params.cpSumBytes) :
    cpSum (l ++ [b]) = cpSum l + zext16 b := by
  rw [cpSum_of_le (by rw [List.length_append]; exact h), cpSum_of_le (Nat.le_of_lt h), byteSum_concat]

/-- The wire formats have the lengths that R8 and R10 give. -/
theorem cpPacket_length (p : Payload) (t : Word) : (cpPacket p t).length = Params.cpPacketBytes := by
  simp [cpPacket]

theorem littleEndian_length (ws : List Word) : (littleEndian ws).length = 2 * ws.length := by
  simp [littleEndian, Nat.mul_comm]

theorem ibfWith_length (c : Channels) (w : Word) : (ibfWith c w).length = Params.ibFrameBytes := by
  simp [ibfWith, ibBody, littleEndian_length]

/-- One frame byte more (R86). -/
@[simp] theorem ibSum_concat (l : List Byte) (b : Byte) : ibSum (l ++ [b]) = ibSum l - zext16 b := by
  simp [ibSum]

end Sys2Proof.Machine
end

