-- ==== Sys2Proof/Laws/State.lean ====
section
/-! SUPPORT. What each named operation on State leaves in each field: one lemma a field, true by rfl, so that no later
proof unfolds a record update. -/

namespace Sys2Proof.Machine

/-! clearPulses. -/

@[simp] theorem State.clearPulses_proto (s : State) : (s.clearPulses).proto = s.proto := rfl
@[simp] theorem State.clearPulses_cst (s : State) : (s.clearPulses).cst = s.cst := rfl
@[simp] theorem State.clearPulses_ccnt (s : State) : (s.clearPulses).ccnt = s.ccnt := rfl
@[simp] theorem State.clearPulses_cbuf (s : State) : (s.clearPulses).cbuf = s.cbuf := rfl
@[simp] theorem State.clearPulses_csum (s : State) : (s.clearPulses).csum = s.csum := rfl
@[simp] theorem State.clearPulses_ctrh (s : State) : (s.clearPulses).ctrh = s.ctrh := rfl
@[simp] theorem State.clearPulses_ist (s : State) : (s.clearPulses).ist = s.ist := rfl
@[simp] theorem State.clearPulses_iidx (s : State) : (s.clearPulses).iidx = s.iidx := rfl
@[simp] theorem State.clearPulses_iacc (s : State) : (s.clearPulses).iacc = s.iacc := rfl
@[simp] theorem State.clearPulses_ich (s : State) : (s.clearPulses).ich = s.ich := rfl
@[simp] theorem State.clearPulses_iwcs (s : State) : (s.clearPulses).iwcs = s.iwcs := rfl
@[simp] theorem State.clearPulses_fr (s : State) : (s.clearPulses).fr = s.fr := rfl
@[simp] theorem State.clearPulses_report (s : State) : (s.clearPulses).report = s.report := rfl
@[simp] theorem State.clearPulses_outValid (s : State) : (s.clearPulses).outValid = false := rfl
@[simp] theorem State.clearPulses_evCsumErr (s : State) : (s.clearPulses).evCsumErr = false := rfl
@[simp] theorem State.clearPulses_evTestMismatch (s : State) : (s.clearPulses).evTestMismatch = false := rfl
@[simp] theorem State.clearPulses_inputs (s : State) : (s.clearPulses).inputs = s.inputs := rfl
@[simp] theorem State.clearPulses_edge (s : State) : (s.clearPulses).edge = s.edge := rfl

/-! idle. -/

@[simp] theorem State.idle_proto (s : State) : (s.idle).proto = s.proto := rfl
@[simp] theorem State.idle_cst (s : State) : (s.idle).cst = s.cst := rfl
@[simp] theorem State.idle_ccnt (s : State) : (s.idle).ccnt = s.ccnt := rfl
@[simp] theorem State.idle_cbuf (s : State) : (s.idle).cbuf = s.cbuf := rfl
@[simp] theorem State.idle_csum (s : State) : (s.idle).csum = s.csum := rfl
@[simp] theorem State.idle_ctrh (s : State) : (s.idle).ctrh = s.ctrh := rfl
@[simp] theorem State.idle_ist (s : State) : (s.idle).ist = s.ist := rfl
@[simp] theorem State.idle_iidx (s : State) : (s.idle).iidx = s.iidx := rfl
@[simp] theorem State.idle_iacc (s : State) : (s.idle).iacc = s.iacc := rfl
@[simp] theorem State.idle_ich (s : State) : (s.idle).ich = s.ich := rfl
@[simp] theorem State.idle_iwcs (s : State) : (s.idle).iwcs = s.iwcs := rfl
@[simp] theorem State.idle_fr (s : State) : (s.idle).fr = s.fr := rfl
@[simp] theorem State.idle_report (s : State) : (s.idle).report = s.report := rfl
@[simp] theorem State.idle_outValid (s : State) : (s.idle).outValid = false := rfl
@[simp] theorem State.idle_evCsumErr (s : State) : (s.idle).evCsumErr = false := rfl
@[simp] theorem State.idle_evTestMismatch (s : State) : (s.idle).evTestMismatch = false := rfl
@[simp] theorem State.idle_inputs (s : State) : (s.idle).inputs = s.inputs := rfl
@[simp] theorem State.idle_edge (s : State) : (s.idle).edge = s.edge := rfl

/-! emit. -/

@[simp] theorem State.emit_proto (f : Frame) (s : State) : (s.emit f).proto = s.proto := rfl
@[simp] theorem State.emit_cst (f : Frame) (s : State) : (s.emit f).cst = s.cst := rfl
@[simp] theorem State.emit_ccnt (f : Frame) (s : State) : (s.emit f).ccnt = s.ccnt := rfl
@[simp] theorem State.emit_cbuf (f : Frame) (s : State) : (s.emit f).cbuf = s.cbuf := rfl
@[simp] theorem State.emit_csum (f : Frame) (s : State) : (s.emit f).csum = s.csum := rfl
@[simp] theorem State.emit_ctrh (f : Frame) (s : State) : (s.emit f).ctrh = s.ctrh := rfl
@[simp] theorem State.emit_ist (f : Frame) (s : State) : (s.emit f).ist = s.ist := rfl
@[simp] theorem State.emit_iidx (f : Frame) (s : State) : (s.emit f).iidx = s.iidx := rfl
@[simp] theorem State.emit_iacc (f : Frame) (s : State) : (s.emit f).iacc = s.iacc := rfl
@[simp] theorem State.emit_ich (f : Frame) (s : State) : (s.emit f).ich = s.ich := rfl
@[simp] theorem State.emit_iwcs (f : Frame) (s : State) : (s.emit f).iwcs = s.iwcs := rfl
@[simp] theorem State.emit_fr (f : Frame) (s : State) : (s.emit f).fr = f := rfl
@[simp] theorem State.emit_report (f : Frame) (s : State) : (s.emit f).report = mapReport s.proto f := rfl
@[simp] theorem State.emit_outValid (f : Frame) (s : State) : (s.emit f).outValid = true := rfl
@[simp] theorem State.emit_evCsumErr (f : Frame) (s : State) : (s.emit f).evCsumErr = s.evCsumErr := rfl
@[simp] theorem State.emit_evTestMismatch (f : Frame) (s : State) : (s.emit f).evTestMismatch = s.evTestMismatch := rfl
@[simp] theorem State.emit_inputs (f : Frame) (s : State) : (s.emit f).inputs = s.inputs := rfl
@[simp] theorem State.emit_edge (f : Frame) (s : State) : (s.emit f).edge = s.edge := rfl

/-! afterEdge. -/

@[simp] theorem State.afterEdge_proto (s : State) : (s.afterEdge).proto = s.proto := rfl
@[simp] theorem State.afterEdge_cst (s : State) : (s.afterEdge).cst = s.cst := rfl
@[simp] theorem State.afterEdge_ccnt (s : State) : (s.afterEdge).ccnt = s.ccnt := rfl
@[simp] theorem State.afterEdge_cbuf (s : State) : (s.afterEdge).cbuf = s.cbuf := rfl
@[simp] theorem State.afterEdge_csum (s : State) : (s.afterEdge).csum = s.csum := rfl
@[simp] theorem State.afterEdge_ctrh (s : State) : (s.afterEdge).ctrh = s.ctrh := rfl
@[simp] theorem State.afterEdge_ist (s : State) : (s.afterEdge).ist = s.ist := rfl
@[simp] theorem State.afterEdge_iidx (s : State) : (s.afterEdge).iidx = s.iidx := rfl
@[simp] theorem State.afterEdge_iacc (s : State) : (s.afterEdge).iacc = s.iacc := rfl
@[simp] theorem State.afterEdge_ich (s : State) : (s.afterEdge).ich = s.ich := rfl
@[simp] theorem State.afterEdge_iwcs (s : State) : (s.afterEdge).iwcs = s.iwcs := rfl
@[simp] theorem State.afterEdge_fr (s : State) : (s.afterEdge).fr = s.fr := rfl
@[simp] theorem State.afterEdge_report (s : State) : (s.afterEdge).report = s.report := rfl
@[simp] theorem State.afterEdge_outValid (s : State) : (s.afterEdge).outValid = s.outValid := rfl
@[simp] theorem State.afterEdge_evCsumErr (s : State) : (s.afterEdge).evCsumErr = s.evCsumErr := rfl
@[simp] theorem State.afterEdge_evTestMismatch (s : State) : (s.afterEdge).evTestMismatch = s.evTestMismatch := rfl
@[simp] theorem State.afterEdge_inputs (s : State) : (s.afterEdge).inputs = s.inputs.tail := rfl
@[simp] theorem State.afterEdge_edge (s : State) : (s.afterEdge).edge = s.edge + 1 := rfl

/-! raise_csumMismatch. -/

@[simp] theorem State.raise_csumMismatch_proto (s : State) : (s.raise .csumMismatch).proto = s.proto := rfl
@[simp] theorem State.raise_csumMismatch_cst (s : State) : (s.raise .csumMismatch).cst = s.cst := rfl
@[simp] theorem State.raise_csumMismatch_ccnt (s : State) : (s.raise .csumMismatch).ccnt = s.ccnt := rfl
@[simp] theorem State.raise_csumMismatch_cbuf (s : State) : (s.raise .csumMismatch).cbuf = s.cbuf := rfl
@[simp] theorem State.raise_csumMismatch_csum (s : State) : (s.raise .csumMismatch).csum = s.csum := rfl
@[simp] theorem State.raise_csumMismatch_ctrh (s : State) : (s.raise .csumMismatch).ctrh = s.ctrh := rfl
@[simp] theorem State.raise_csumMismatch_ist (s : State) : (s.raise .csumMismatch).ist = s.ist := rfl
@[simp] theorem State.raise_csumMismatch_iidx (s : State) : (s.raise .csumMismatch).iidx = s.iidx := rfl
@[simp] theorem State.raise_csumMismatch_iacc (s : State) : (s.raise .csumMismatch).iacc = s.iacc := rfl
@[simp] theorem State.raise_csumMismatch_ich (s : State) : (s.raise .csumMismatch).ich = s.ich := rfl
@[simp] theorem State.raise_csumMismatch_iwcs (s : State) : (s.raise .csumMismatch).iwcs = s.iwcs := rfl
@[simp] theorem State.raise_csumMismatch_fr (s : State) : (s.raise .csumMismatch).fr = s.fr := rfl
@[simp] theorem State.raise_csumMismatch_report (s : State) : (s.raise .csumMismatch).report = s.report := rfl
@[simp] theorem State.raise_csumMismatch_outValid (s : State) : (s.raise .csumMismatch).outValid = s.outValid := rfl
@[simp] theorem State.raise_csumMismatch_evCsumErr (s : State) : (s.raise .csumMismatch).evCsumErr = true := rfl
@[simp] theorem State.raise_csumMismatch_evTestMismatch (s : State) : (s.raise .csumMismatch).evTestMismatch = s.evTestMismatch := rfl
@[simp] theorem State.raise_csumMismatch_inputs (s : State) : (s.raise .csumMismatch).inputs = s.inputs := rfl
@[simp] theorem State.raise_csumMismatch_edge (s : State) : (s.raise .csumMismatch).edge = s.edge := rfl

/-! raise_testMismatch. -/

@[simp] theorem State.raise_testMismatch_proto (s : State) : (s.raise .testMismatch).proto = s.proto := rfl
@[simp] theorem State.raise_testMismatch_cst (s : State) : (s.raise .testMismatch).cst = s.cst := rfl
@[simp] theorem State.raise_testMismatch_ccnt (s : State) : (s.raise .testMismatch).ccnt = s.ccnt := rfl
@[simp] theorem State.raise_testMismatch_cbuf (s : State) : (s.raise .testMismatch).cbuf = s.cbuf := rfl
@[simp] theorem State.raise_testMismatch_csum (s : State) : (s.raise .testMismatch).csum = s.csum := rfl
@[simp] theorem State.raise_testMismatch_ctrh (s : State) : (s.raise .testMismatch).ctrh = s.ctrh := rfl
@[simp] theorem State.raise_testMismatch_ist (s : State) : (s.raise .testMismatch).ist = s.ist := rfl
@[simp] theorem State.raise_testMismatch_iidx (s : State) : (s.raise .testMismatch).iidx = s.iidx := rfl
@[simp] theorem State.raise_testMismatch_iacc (s : State) : (s.raise .testMismatch).iacc = s.iacc := rfl
@[simp] theorem State.raise_testMismatch_ich (s : State) : (s.raise .testMismatch).ich = s.ich := rfl
@[simp] theorem State.raise_testMismatch_iwcs (s : State) : (s.raise .testMismatch).iwcs = s.iwcs := rfl
@[simp] theorem State.raise_testMismatch_fr (s : State) : (s.raise .testMismatch).fr = s.fr := rfl
@[simp] theorem State.raise_testMismatch_report (s : State) : (s.raise .testMismatch).report = s.report := rfl
@[simp] theorem State.raise_testMismatch_outValid (s : State) : (s.raise .testMismatch).outValid = s.outValid := rfl
@[simp] theorem State.raise_testMismatch_evCsumErr (s : State) : (s.raise .testMismatch).evCsumErr = s.evCsumErr := rfl
@[simp] theorem State.raise_testMismatch_evTestMismatch (s : State) : (s.raise .testMismatch).evTestMismatch = true := rfl
@[simp] theorem State.raise_testMismatch_inputs (s : State) : (s.raise .testMismatch).inputs = s.inputs := rfl
@[simp] theorem State.raise_testMismatch_edge (s : State) : (s.raise .testMismatch).edge = s.edge := rfl

/-! resetStep. -/

@[simp] theorem State.resetStep_proto (p : Proto) (s : State) : (s.resetStep p).proto = p := rfl
@[simp] theorem State.resetStep_cst (p : Proto) (s : State) : (s.resetStep p).cst = 0 := rfl
@[simp] theorem State.resetStep_ccnt (p : Proto) (s : State) : (s.resetStep p).ccnt = 0 := rfl
@[simp] theorem State.resetStep_cbuf (p : Proto) (s : State) : (s.resetStep p).cbuf = Vector.replicate 14 0 := rfl
@[simp] theorem State.resetStep_csum (p : Proto) (s : State) : (s.resetStep p).csum = 0 := rfl
@[simp] theorem State.resetStep_ctrh (p : Proto) (s : State) : (s.resetStep p).ctrh = 0 := rfl
@[simp] theorem State.resetStep_ist (p : Proto) (s : State) : (s.resetStep p).ist = 0 := rfl
@[simp] theorem State.resetStep_iidx (p : Proto) (s : State) : (s.resetStep p).iidx = 0 := rfl
@[simp] theorem State.resetStep_iacc (p : Proto) (s : State) : (s.resetStep p).iacc = 0xFFFF := rfl
@[simp] theorem State.resetStep_ich (p : Proto) (s : State) : (s.resetStep p).ich = Vector.replicate 14 0 := rfl
@[simp] theorem State.resetStep_iwcs (p : Proto) (s : State) : (s.resetStep p).iwcs = 0 := rfl
@[simp] theorem State.resetStep_fr (p : Proto) (s : State) : (s.resetStep p).fr = Vector.replicate 14 0 := rfl
@[simp] theorem State.resetStep_report (p : Proto) (s : State) : (s.resetStep p).report = Vector.replicate 6 0 := rfl
@[simp] theorem State.resetStep_outValid (p : Proto) (s : State) : (s.resetStep p).outValid = false := rfl
@[simp] theorem State.resetStep_evCsumErr (p : Proto) (s : State) : (s.resetStep p).evCsumErr = false := rfl
@[simp] theorem State.resetStep_evTestMismatch (p : Proto) (s : State) : (s.resetStep p).evTestMismatch = false := rfl
@[simp] theorem State.resetStep_inputs (p : Proto) (s : State) : (s.resetStep p).inputs = s.inputs := rfl
@[simp] theorem State.resetStep_edge (p : Proto) (s : State) : (s.resetStep p).edge = s.edge := rfl

/-- A framing error raises no pulse (R191). -/
@[simp] theorem State.raise_framingError (s : State) : s.raise .framingError = s := rfl

@[simp] theorem State.activeCode_afterEdge (s : State) : s.afterEdge.activeCode = s.activeCode := rfl

@[simp] theorem State.decodeWord_afterEdge (s : State) (b : Byte) : s.afterEdge.decodeWord b = s.decodeWord b := rfl

theorem State.activeCode_cp {s : State} (h : s.proto = .cp) : s.activeCode = s.cst := by
  simp [State.activeCode, h]

theorem State.activeCode_ib {s : State} (h : s.proto = .ib) : s.activeCode = s.ist := by
  simp [State.activeCode, h]

@[simp] theorem State.nextEdge_cons (s : State) (e : Edge) (es : List Edge) :
    ({ s with inputs := e :: es } : State).nextEdge = e := rfl

theorem State.nextEdge_of_inputs {s : State} {e : Edge} {es : List Edge} (h : s.inputs = e :: es) : s.nextEdge = e := by
  simp [State.nextEdge, h]

end Sys2Proof.Machine
end

