-- ==== Sys2Proof/Laws/Clock.lean ====
section
/-! SUPPORT. What one edge does, by kind, and which rule an accepting edge runs, by state code: later proofs cite these and
unfold neither the decoder nor `clockEdge`. -/

namespace Sys2Proof.Machine

theorem clockEdge_reset {e : Edge} (s : State) (h : e.rst = true) : clockEdge e s = .next (s.resetStep e.protoSel) := by
  simp [clockEdge, h]

theorem clockEdge_idle {e : Edge} (s : State) (h : e.rst = false) (v : e.inValid = false) :
    clockEdge e s = .next s.idle := by
  simp [clockEdge, h, v]

theorem clockEdge_accept {e : Edge} (s : State) (h : e.rst = false) (v : e.inValid = true) :
    clockEdge e s = accept e.inData s := by
  simp [clockEdge, h, v]

theorem accept_cp {s : State} (b : Byte) (h : s.proto = .cp) : accept b s = exec (decodeCp s.cst b) s := by
  simp [accept, State.decodeWord, State.activeCode, h]

theorem accept_ib {s : State} (b : Byte) (h : s.proto = .ib) : accept b s = exec (decodeIb s.ist b) s := by
  simp [accept, State.decodeWord, State.activeCode, h]

/-- A rule leaves PROTO and the model's own two fields alone (R21). -/
theorem exec_frame {i : Instr} {s t : State} (h : exec i s = .next t) :
    t.proto = s.proto ∧ t.inputs = s.inputs ∧ t.edge = s.edge := by
  cases i <;>
    simp only [exec, execCpScanASync, execCpScanASkip, execCpScanBOk, execCpScanBResync, execCpScanBFail,
      execCpPayloadByte, execCpCsumHi, execCpCsumLo, execCpBadState, execIbHdrASync, execIbHdrASkip, execIbHdrBOk,
      execIbHdrBFail, execIbIntLo, execIbIntHi, execIbCheckA, execIbCheckB, execIbBadState, execMapCp, execMapIb] at h <;>
    (repeat' split at h) <;> cases h <;> simp

end Sys2Proof.Machine
end

