-- ==== Sys2Proof/Laws/Inversion.lean ====
section
/-! SUPPORT. Said once: everything a step can do. `StepEffect s t` lists the cases of `step s = .next t`, and `CpEffect` and
`IbEffect` those of an accepted byte; later proofs take these cases apart and unfold no meaning. -/

namespace Sys2Proof.Safety

open Sys2Proof.Machine

/-- What the Custom-Protocol rules can do to s with the byte b (R111 to R121). -/
inductive CpEffect (s : State) (b : Byte) : State → Prop
  | scanASync (c : s.cst = 0) (h : b = 0x55) : CpEffect s b { quiet s with cst := 1 }
  | scanASkip (c : s.cst = 0) (h : b ≠ 0x55) : CpEffect s b (quiet s)
  | scanBOk (c : s.cst = 1) (h : b = 0xFC) : CpEffect s b { quiet s with cst := 2, ccnt := 0, csum := 0 }
  | scanBResync (c : s.cst = 1) (h : b = 0x55) : CpEffect s b { quiet s with cst := 1 }
  | scanBFail (c : s.cst = 1) (h : b ≠ 0xFC) (h' : b ≠ 0x55) : CpEffect s b { quiet s with cst := 0 }
  | payload (c : s.cst = 2) : CpEffect s b { quiet s with
      cbuf := cbufWrite s.cbuf s.ccnt b
      csum := cpSumStep s.csum s.ccnt b
      ccnt := s.ccnt + 1
      cst := if s.ccnt.toNat = 13 then 3 else 2 }
  | csumHi (c : s.cst = 3) : CpEffect s b { quiet s with ctrh := b, cst := 4 }
  | emit (c : s.cst = 4) (h : s.csum = cat s.ctrh b) : CpEffect s b { quiet s with
      cst := 0
      fr := cpDecode s.cbuf
      report := mapReport s.proto (cpDecode s.cbuf)
      outValid := true
      evTestMismatch := cpTestMismatch s.cbuf }
  | drop (c : s.cst = 4) (h : s.csum ≠ cat s.ctrh b) : CpEffect s b { quiet s with cst := 0, evCsumErr := true }
  | badSync (c : 5 ≤ s.cst.toNat) (h : b = 0x55) : CpEffect s b { quiet s with cst := 1 }
  | badSkip (c : 5 ≤ s.cst.toNat) (h : b ≠ 0x55) : CpEffect s b { quiet s with cst := 0 }

theorem exec_decodeCp_effect {s t : State} {b : Byte} (h : exec (decodeCp s.cst b) s = .next t) : CpEffect s b t := by
  have hc : s.cst = 0#3 ∨ s.cst = 1#3 ∨ s.cst = 2#3 ∨ s.cst = 3#3 ∨ s.cst = 4#3 ∨ 5 ≤ s.cst.toNat := by
    generalize s.cst = c; revert c; decide
  rcases hc with hc | hc | hc | hc | hc | hc
  · rw [hc] at h
    by_cases hb : b = 0x55#8
    · subst hb; cases h; exact .scanASync hc rfl
    · rw [decodeCp_scanA_skip hb] at h; cases h; exact .scanASkip hc hb
  · rw [hc] at h
    by_cases hb : b = 0xFC#8
    · subst hb; cases h; exact .scanBOk hc rfl
    · by_cases hb' : b = 0x55#8
      · subst hb'; cases h; exact .scanBResync hc rfl
      · rw [decodeCp_scanB_fail hb hb'] at h; cases h; exact .scanBFail hc hb hb'
  · rw [hc] at h
    have e : exec (decodeCp 2#3 b) s = .next { quiet s with
        cbuf := cbufWrite s.cbuf s.ccnt b
        csum := cpSumStep s.csum s.ccnt b
        ccnt := s.ccnt + 1
        cst := if s.ccnt.toNat = 13 then 3 else 2 } := by
      simp [exec, execCpPayloadByte, Params.cpPayloadBytes, Params.cpCsumHi, hc, quiet, State.clearPulses]
    rw [e] at h; cases h; exact .payload hc
  · rw [hc] at h; cases h; exact .csumHi hc
  · rw [hc] at h
    simp only [decodeCp_csumLo, exec, execCpCsumLo] at h
    by_cases hv : s.csum = cat s.ctrh b
    · have e : cpValid s.csum s.ctrh b = true := decide_eq_true hv
      rw [e] at h
      have := CpEffect.emit hc hv
      cases hm : cpTestMismatch s.cbuf <;> rw [hm] at h this <;> cases h <;> exact this
    · have e : cpValid s.csum s.ctrh b = false := decide_eq_false hv
      rw [e] at h; cases h; exact .drop hc hv
  · rw [decodeCp_bad hc] at h
    by_cases hb : b = 0x55#8
    · subst hb; cases h; exact .badSync hc rfl
    · have e : (if b = Params.cpHeaderA then Params.cpScanB else Params.cpScanA) = 0 := if_neg hb
      cases h; rw [e]; exact .badSkip hc hb

/-- What the IBUS rules can do to s with the byte b (R141 to R149). -/
inductive IbEffect (s : State) (b : Byte) : State → Prop
  | hdrASync (c : s.ist = 0) (h : b = 0x20) : IbEffect s b { quiet s with iacc := 0xFFDF, ist := 1 }
  | hdrASkip (c : s.ist = 0) (h : b ≠ 0x20) : IbEffect s b (quiet s)
  | hdrBOk (c : s.ist = 1) (h : b = 0x40) : IbEffect s b { quiet s with iacc := s.iacc - 0x40, iidx := 0, ist := 2 }
  | hdrBFail (c : s.ist = 1) (h : b ≠ 0x40) :
      IbEffect s b { quiet s with iacc := s.iacc - zext16 b, iidx := 0, ist := 0 }
  | intLo (c : s.ist = 2) : IbEffect s b { quiet s with
      ich := ichWrite s.ich s.iidx (zext16 b)
      iacc := s.iacc - zext16 b
      ist := 3 }
  | intHi (c : s.ist = 3) : IbEffect s b { quiet s with
      ich := ichWrite s.ich s.iidx (orHigh (ichRead s.ich s.iidx) b)
      iacc := s.iacc - zext16 b
      iidx := s.iidx + 1
      ist := if s.iidx.toNat = 13 then 4 else 2 }
  | checkA (c : s.ist = 4) : IbEffect s b { quiet s with iwcs := zext16 b, ist := 5 }
  | emit (c : s.ist = 5) (h : orHigh s.iwcs b = s.iacc) : IbEffect s b { quiet s with
      ist := 0
      iacc := 0xFFFF
      iwcs := orHigh s.iwcs b
      fr := s.ich
      report := mapReport s.proto s.ich
      outValid := true }
  | drop (c : s.ist = 5) (h : orHigh s.iwcs b ≠ s.iacc) : IbEffect s b { quiet s with
      ist := 0
      iacc := 0xFFFF
      iwcs := orHigh s.iwcs b
      evCsumErr := true }
  | badSync (c : 6 ≤ s.ist.toNat) (h : b = 0x20) : IbEffect s b { quiet s with iacc := 0xFFDF, ist := 1 }
  | badSkip (c : 6 ≤ s.ist.toNat) (h : b ≠ 0x20) : IbEffect s b { quiet s with ist := 0 }

theorem exec_decodeIb_effect {s t : State} {b : Byte} (h : exec (decodeIb s.ist b) s = .next t) : IbEffect s b t := by
  have hc : s.ist = 0#3 ∨ s.ist = 1#3 ∨ s.ist = 2#3 ∨ s.ist = 3#3 ∨ s.ist = 4#3 ∨ s.ist = 5#3 ∨ 6 ≤ s.ist.toNat := by
    generalize s.ist = c; revert c; decide
  rcases hc with hc | hc | hc | hc | hc | hc | hc
  · rw [hc] at h
    by_cases hb : b = 0x20#8
    · subst hb; cases h; exact .hdrASync hc rfl
    · rw [decodeIb_hdrA_skip hb] at h; cases h; exact .hdrASkip hc hb
  · rw [hc] at h
    by_cases hb : b = 0x40#8
    · subst hb; cases h; exact .hdrBOk hc rfl
    · rw [decodeIb_hdrB_fail hb] at h; cases h; exact .hdrBFail hc hb
  · rw [hc] at h; cases h; exact .intLo hc
  · rw [hc] at h
    have e : exec (decodeIb 3#3 b) s = .next { quiet s with
        ich := ichWrite s.ich s.iidx (orHigh (ichRead s.ich s.iidx) b)
        iacc := s.iacc - zext16 b
        iidx := s.iidx + 1
        ist := if s.iidx.toNat = 13 then 4 else 2 } := by
      simp [exec, execIbIntHi, Params.ibChannels, Params.ibStCheckA, Params.ibStIntLo, ibSumStep, quiet,
        State.clearPulses]
    rw [e] at h; cases h; exact .intHi hc
  · rw [hc] at h; cases h; exact .checkA hc
  · rw [hc] at h
    simp only [decodeIb_checkB, exec, execIbCheckB] at h
    by_cases hv : orHigh s.iwcs b = s.iacc
    · have e : ibValid s.iacc s.iwcs b = true := decide_eq_true hv
      rw [e] at h; cases h; exact .emit hc hv
    · have e : ibValid s.iacc s.iwcs b = false := decide_eq_false hv
      rw [e] at h; cases h; exact .drop hc hv
  · rw [decodeIb_bad hc] at h
    by_cases hb : b = 0x20#8
    · subst hb; cases h; exact .badSync hc rfl
    · have e : exec (.ibBadState s.ist b) s = .next { quiet s with ist := 0 } := if_neg hb
      rw [e] at h; cases h; exact .badSkip hc hb

/-- What a step can do: the ports are sampled, and then one of four things happens. -/
inductive StepEffect (s t : State) : Prop
  | reset (r : s.nextEdge.rst = true) (h : t = s.afterEdge.resetStep s.nextEdge.protoSel)
  | idle (r : s.nextEdge.rst = false) (v : s.nextEdge.inValid = false) (h : t = quiet s.afterEdge)
  | cp (r : s.nextEdge.rst = false) (v : s.nextEdge.inValid = true) (p : s.proto = .cp)
      (h : CpEffect s.afterEdge s.nextEdge.inData t)
  | ib (r : s.nextEdge.rst = false) (v : s.nextEdge.inValid = true) (p : s.proto = .ib)
      (h : IbEffect s.afterEdge s.nextEdge.inData t)

theorem step_effect {s t : State} (h : step s = .next t) : StepEffect s t := by
  unfold step at h
  cases hr : s.nextEdge.rst
  · cases hv : s.nextEdge.inValid
    · rw [clockEdge_idle _ hr hv] at h; cases h; exact .idle hr hv rfl
    · rw [clockEdge_accept _ hr hv] at h
      cases hp : s.proto
      · rw [accept_cp _ (by simpa using hp)] at h; exact .cp hr hv hp (exec_decodeCp_effect h)
      · rw [accept_ib _ (by simpa using hp)] at h; exact .ib hr hv hp (exec_decodeIb_effect h)
  · rw [clockEdge_reset _ hr] at h; cases h; exact .reset hr rfl

end Sys2Proof.Safety
end

