-- ==== Sys2Proof/Laws/PerInstr.lean ====
section
/-! SUPPORT. Statements per constructor of `Instr`. EncodedLength: a parser rule is written in the two bytes of its decode
word, a mapper row in the one byte of its selector (log entry 7). -/

namespace Sys2Proof.Laws.EncodedLength

def Statement (i : Instr) : Prop := (encode i).length = if i.isMapper then 1 else 2

theorem cpScanASync : Statement (.cpScanASync) := rfl

theorem cpScanASkip (b : Byte) : Statement (.cpScanASkip b) := rfl

theorem cpScanBOk : Statement (.cpScanBOk) := rfl

theorem cpScanBResync : Statement (.cpScanBResync) := rfl

theorem cpScanBFail (b : Byte) : Statement (.cpScanBFail b) := rfl

theorem cpPayloadByte (b : Byte) : Statement (.cpPayloadByte b) := rfl

theorem cpCsumHi (b : Byte) : Statement (.cpCsumHi b) := rfl

theorem cpCsumLo (b : Byte) : Statement (.cpCsumLo b) := rfl

theorem cpBadState (st : BitVec 3) (b : Byte) : Statement (.cpBadState st b) := rfl

theorem ibHdrASync : Statement (.ibHdrASync) := rfl

theorem ibHdrASkip (b : Byte) : Statement (.ibHdrASkip b) := rfl

theorem ibHdrBOk : Statement (.ibHdrBOk) := rfl

theorem ibHdrBFail (b : Byte) : Statement (.ibHdrBFail b) := rfl

theorem ibIntLo (b : Byte) : Statement (.ibIntLo b) := rfl

theorem ibIntHi (b : Byte) : Statement (.ibIntHi b) := rfl

theorem ibCheckA (b : Byte) : Statement (.ibCheckA b) := rfl

theorem ibCheckB (b : Byte) : Statement (.ibCheckB b) := rfl

theorem ibBadState (st : BitVec 3) (b : Byte) : Statement (.ibBadState st b) := rfl

theorem mapCp : Statement (.mapCp) := rfl

theorem mapIb : Statement (.mapIb) := rfl

end Sys2Proof.Laws.EncodedLength
end

