-- ==== Sys2Proof/Laws/Run.lean ====
section
/-! SUPPORT. Runs of several steps: one step at a time, and in two parts. -/

namespace Sys2Proof.Safety

open Sys2Proof.Machine

theorem core_run_succ (m : Host.Core) (k : Nat) (s : m.State) :
    m.run (k + 1) s = match m.step s with
      | .next t => m.run k t
      | .fault r => .fault r
      | .refused r => .refused r := by
  cases h : m.step s <;> simp [Host.Core.run, h]

theorem runSteps_zero (s : State) : runSteps 0 s = .next s := rfl

/-- One step and then the rest. -/
theorem runSteps_succ {s t : State} (k : Nat) (h : step s = .next t) : runSteps (k + 1) s = runSteps k t := by
  refine (core_run_succ core k s).trans ?_
  have h' : core.step s = .next t := h
  rw [h']
  rfl

/-- Two parts of a run. -/
theorem runSteps_add {s t : State} (j k : Nat) (h : runSteps j s = .next t) : runSteps (j + k) s = runSteps k t := by
  induction j generalizing s with
  | zero => cases h; rw [Nat.zero_add]
  | succ j ih =>
    cases hs : step s with
    | next s' =>
      rw [runSteps_succ j hs] at h
      rw [Nat.succ_add, runSteps_succ _ hs]
      exact ih h
    | fault r => exact nomatch r
    | refused r =>
      have h' : core.step s = .refused r := hs
      have := (core_run_succ core j s).symm.trans h
      rw [h'] at this
      cases this

end Sys2Proof.Safety
end

