-- ==== Sys2Proof/Tests/Slice0.lean ====
section
/-! SUPPORT. The model's own tests. Expected values are those of 95_test_vectors or worked out by hand from the rules; the
theorems named `witness_<Obligation>` meet all hypotheses of a statement at once, clause by clause. -/

namespace Sys2Proof.Tests

open Sys2Proof.Machine Sys2Proof.Safety

/-! ### Helpers -/

/-- The state a step leaves. -/
def after (o : Host.Outcome State Fault Refusal) : Option State :=
  match o with
  | .next t => some t
  | .fault _ => none
  | .refused _ => none

theorem of_after {o : Host.Outcome State Fault Refusal} {P : State → Bool} (h : (after o).any P = true) :
    ∃ t, o = .next t ∧ P t = true := by
  cases o with
  | next t => exact ⟨t, rfl, h⟩
  | fault r => exact nomatch r
  | refused r => exact absurd h Bool.false_ne_true

/-- From reset with PROTO = 0: CST, and the byte on the ports. -/
def cpAt (st : BitVec 3) (b : Byte) : State := { State.resetWith .cp with cst := st, inputs := [acceptEdge b] }

/-- From reset with PROTO = 1: IST, and the byte on the ports. -/
def ibAt (st : BitVec 3) (b : Byte) : State := { State.resetWith .ib with ist := st, inputs := [acceptEdge b] }

/-- One step, looked at through f. -/
def see {α : Type} (s : State) (f : State → α) : Option α := (after (step s)).map f

/-- OUT_VALID, EV_CSUM_ERR, EV_TEST_MISMATCH. -/
def pulses (s : State) : List Bool := [s.outValid, s.evCsumErr, s.evTestMismatch]

/-- The payload of CP-F7: seven words 1511. -/
def p1511 : Payload := #v[5, 0xE7, 5, 0xE7, 5, 0xE7, 5, 0xE7, 5, 0xE7, 5, 0xE7, 5, 0xE7]

/-- The payload of CP-F2: the test word 1600 differs from word 2, 1511. -/
def pF2 : Payload := #v[3, 0xE8, 7, 0xE6, 5, 0xE7, 5, 0xDC, 0x0B, 0xB8, 3, 0xE7, 6, 0x40]

/-- Fourteen channels 1500 (S2). -/
def c1500 : Frame := Vector.replicate 14 1500

/-! ### WellFormed refuses an ill-formed term of each check -/

theorem test_wf_cpScanASkip : (Instr.cpScanASkip 0x55).wf = false := by decide
theorem test_wf_cpScanBFail_fc : (Instr.cpScanBFail 0xFC).wf = false := by decide
theorem test_wf_cpScanBFail_55 : (Instr.cpScanBFail 0x55).wf = false := by decide
theorem test_wf_cpBadState : (Instr.cpBadState 4 0x12).wf = false := by decide
theorem test_wf_ibHdrASkip : (Instr.ibHdrASkip 0x20).wf = false := by decide
theorem test_wf_ibHdrBFail : (Instr.ibHdrBFail 0x40).wf = false := by decide
theorem test_wf_ibBadState : (Instr.ibBadState 5 0x12).wf = false := by decide

/-! ### Words written out from R88 and R89, bit by bit: PROTO, ST, b -/

theorem test_word_cpScanASync : decodeW 0b0_000_01010101 = .cpScanASync := by decide
theorem test_word_cpScanASkip : decodeW 0b0_000_11111100 = .cpScanASkip 0xFC := by decide
theorem test_word_cpScanBOk : decodeW 0b0_001_11111100 = .cpScanBOk := by decide
theorem test_word_cpScanBResync : decodeW 0b0_001_01010101 = .cpScanBResync := by decide
theorem test_word_cpScanBFail : decodeW 0b0_001_00100000 = .cpScanBFail 0x20 := by decide
theorem test_word_cpPayloadByte : decodeW 0b0_010_01010101 = .cpPayloadByte 0x55 := by decide
theorem test_word_cpCsumHi : decodeW 0b0_011_00000110 = .cpCsumHi 0x06 := by decide
theorem test_word_cpCsumLo : decodeW 0b0_100_01110100 = .cpCsumLo 0x74 := by decide
theorem test_word_cpBadState : decodeW 0b0_101_00010010 = .cpBadState 5 0x12 := by decide
theorem test_word_ibHdrASync : decodeW 0b1_000_00100000 = .ibHdrASync := by decide
theorem test_word_ibHdrASkip : decodeW 0b1_000_01000000 = .ibHdrASkip 0x40 := by decide
theorem test_word_ibHdrBOk : decodeW 0b1_001_01000000 = .ibHdrBOk := by decide
theorem test_word_ibHdrBFail : decodeW 0b1_001_00100000 = .ibHdrBFail 0x20 := by decide
theorem test_word_ibIntLo : decodeW 0b1_010_11011100 = .ibIntLo 0xDC := by decide
theorem test_word_ibIntHi : decodeW 0b1_011_00000101 = .ibIntHi 0x05 := by decide
theorem test_word_ibCheckA : decodeW 0b1_100_01010001 = .ibCheckA 0x51 := by decide
theorem test_word_ibCheckB : decodeW 0b1_101_11110011 = .ibCheckB 0xF3 := by decide
theorem test_word_ibBadState : decodeW 0b1_111_00000000 = .ibBadState 7 0x00 := by decide
/-- R170: the mapper rows, by the PROTO bit. -/
theorem test_word_mapCp : decodeTableWord 8 0 = some .mapCp := by decide
theorem test_word_mapIb : decodeTableWord 8 1 = some .mapIb := by decide
/-- The two bytes of a word of 16 table bits. -/
theorem test_tableWord : decodeTableWord 16 0x0474 = some (.cpCsumLo 0x74) := by decide

/-! ### One step per rule (95, section 2.1) -/

theorem test_CP_T1 : see (cpAt 0 0x55) (fun t => (t.cst, pulses t)) = some (1, [false, false, false]) := by decide +kernel
theorem test_CP_T2 : see (cpAt 0 0xFC) (·.cst) = some 0 := by decide +kernel
theorem test_CP_T4 : see { cpAt 1 0xFC with ccnt := 14, csum := 0x0674 } (fun t => (t.cst, t.ccnt, t.csum)) =
    some (2, 0, 0) := by decide +kernel
theorem test_CP_T5 : see (cpAt 1 0x55) (·.cst) = some 1 := by decide +kernel
theorem test_CP_T7 : see (cpAt 1 0x20) (·.cst) = some 0 := by decide +kernel
theorem test_CP_T8 : see (cpAt 2 0xFF) (fun t => (t.cbuf[0], t.ccnt, t.csum, t.cst)) = some (0xFF, 1, 0x00FF, 2) := by
  decide +kernel
theorem test_CP_T9 : see { cpAt 2 0xE7 with ccnt := 13, csum := 0x0063 }
    (fun t => (t.cbuf[13], t.ccnt, t.csum, t.cst)) = some (0xE7, 14, 0x014A, 3) := by decide +kernel
theorem test_CP_T11 : see (cpAt 3 0x06) (fun t => (t.ctrh, t.cst)) = some (0x06, 4) := by decide +kernel
theorem test_CP_T12 : see { cpAt 4 0x74 with ctrh := 6, csum := 0x0674, cbuf := p1511 }
    (fun t => (t.cst, pulses t, t.fr[0], t.fr[6], t.report)) =
      some (0, [true, false, false], 511, 1511, #v[0, 0, 0, 0, 0, 0]) := by decide +kernel
theorem test_CP_T13 : see { cpAt 4 0x75 with ctrh := 6, csum := 0x0674, cbuf := p1511, fr := c1500 }
    (fun t => (t.cst, pulses t, t.fr)) = some (0, [false, true, false], c1500) := by decide +kernel
theorem test_CP_T14 : see (cpAt 6 0x55) (·.cst) = some 1 := by decide +kernel
theorem test_CP_T15 : see (cpAt 5 0x12) (·.cst) = some 0 := by decide +kernel

/-! ### One step per rule (95, section 2.3) -/

theorem test_IB_T1 : see { ibAt 0 0x20 with iacc := 0x1234 } (fun t => (t.ist, t.iacc)) = some (1, 0xFFDF) := by
  decide +kernel
theorem test_IB_T2 : see (ibAt 0 0x40) (·.ist) = some 0 := by decide +kernel
theorem test_IB_T3 : see { ibAt 1 0x40 with iacc := 0xFFDF, iidx := 14 } (fun t => (t.ist, t.iidx, t.iacc)) =
    some (2, 0, 0xFF9F) := by decide +kernel
theorem test_IB_T4 : see { ibAt 1 0x20 with iacc := 0xFFDF, iidx := 14 } (fun t => (t.ist, t.iidx, t.iacc)) =
    some (0, 0, 0xFFBF) := by decide +kernel
theorem test_IB_T5 : see { ibAt 2 0xDC with iidx := 3, ich := Vector.replicate 14 0xFFFF, iacc := 0xFF9F }
    (fun t => (t.ich[3], t.ich[4], t.iacc, t.ist)) = some (0x00DC, 0xFFFF, 0xFEC3, 3) := by decide +kernel
theorem test_IB_T6 : see { ibAt 3 0x05 with iidx := 3, ich := Vector.replicate 14 0x00DC, iacc := 0xFEC3 }
    (fun t => (t.ich[3], t.iacc, t.iidx, t.ist)) = some (0x05DC, 0xFEBE, 4, 2) := by decide +kernel
theorem test_IB_T7 : see { ibAt 3 0x05 with iidx := 13, ich := Vector.replicate 14 0x00DC }
    (fun t => (t.ich[13], t.iidx, t.ist)) = some (0x05DC, 14, 4) := by decide +kernel
theorem test_IB_T8 : see { ibAt 4 0x51 with iwcs := 0xABCD, iacc := 0xF351 } (fun t => (t.iwcs, t.ist, t.iacc)) =
    some (0x0051, 5, 0xF351) := by decide +kernel
theorem test_IB_T9 : see { ibAt 5 0xF3 with iwcs := 0x0051, iacc := 0xF351, ich := c1500 }
    (fun t => (t.fr, t.ist, t.iacc, pulses t, t.report)) =
      some (c1500, 0, 0xFFFF, [true, false, false], #v[0, 0, 0, 0, 0, 0]) := by decide +kernel
theorem test_IB_T10 : see { ibAt 5 0xF4 with iwcs := 0x0051, iacc := 0xF351, ich := c1500 }
    (fun t => (t.fr[0], t.ist, t.iacc, t.iwcs, pulses t)) = some (0, 0, 0xFFFF, 0xF451, [false, true, false]) := by decide +kernel
theorem test_IB_T11 : see { ibAt 6 0x20 with iacc := 0 } (fun t => (t.ist, t.iacc)) = some (1, 0xFFDF) := by
  decide +kernel
theorem test_IB_T12 : see (ibAt 7 0x00) (·.ist) = some 0 := by decide +kernel

/-! ### The mapper (95, section 2.5) and the CP decoding (CP-F1, CP-F2) -/

/-- The axis order check: 40 − 511, 30 − 511, 10 − 511, 20 − 511, 50 − 511, 60 − 511. -/
theorem test_mapCp_order :
    (after (exec .mapCp { State.reset with fr := #v[10, 20, 30, 40, 50, 60, 0, 0, 0, 0, 0, 0, 0, 0] })).map
      (fun t => t.report.toList.map BitVec.toInt) = some [-471, -481, -501, -491, -461, -451] := by decide +kernel
/-- T_CP at 1022, 1023, 0, 511, 64536, 22, in slots 0 to 5. -/
theorem test_mapCp_values :
    (after (exec .mapCp { State.reset with fr := #v[1022, 1023, 0, 511, 64536, 22, 0, 0, 0, 0, 0, 0, 0, 0] })).map
      (fun t => t.report.toList.map BitVec.toInt) = some [0, -511, 511, 511, 511, -489] := by decide +kernel
/-- T_IB at 34267, 34268, 65535, 0, 1500, 2000, in slots 0 to 5. -/
theorem test_mapIb_values :
    (after (exec .mapIb { State.reset with fr := #v[34267, 34268, 65535, 0, 1500, 2000, 0, 0, 0, 0, 0, 0, 0, 0] })).map
      (fun t => t.report.toList.map BitVec.toInt) = some [-1500, -1501, 32767, -32768, 0, 500] := by decide +kernel
/-- IB-F3: the six axes. -/
theorem test_mapIb_order :
    (after (exec .mapIb { State.reset with fr := #v[1000, 2000, 1500, 1234, 1000, 2000, 0, 0, 0, 0, 0, 0, 0, 0] })).map
      (fun t => t.report.toList.map BitVec.toInt) = some [-266, 0, -500, 500, -500, 500] := by decide +kernel
/-- CP-F2's frame, slots 0 to 7. -/
theorem test_cpDecode_F2 : (cpDecode pF2).toList.take 8 = [0, 1022, 511, 500, 2000, 65535, 1600, 0] := by decide +kernel
/-- CP-F2's trailer, and the checksum of S2. -/
theorem test_checksums : cpSum pF2.toList = 0x0598 ∧ ibSum (ibBody c1500) = 0xF351 := by decide +kernel

/-! ### Reset and idle (95, section 2.6) -/

theorem test_RS_1 : see { cpAt 2 0x20 with fr := c1500, inputs := [⟨true, .ib, true, 0x20⟩] }
    (fun t => (t.proto, t.ist, t.iacc, t.fr[0], pulses t)) =
      some (.ib, 0, 0xFFFF, 0, [false, false, false]) := by decide +kernel
theorem test_RS_2_RS_3 : see { cpAt 2 0 with ccnt := 7, outValid := true, fr := c1500, inputs := [idleEdge] }
    (fun t => (t.cst, t.ccnt, t.outValid, t.fr)) = some (2, 7, false, c1500) := by decide +kernel
theorem test_RS_4 : see { ibAt 0 0x20 with inputs := [⟨false, .cp, true, 0x20⟩] } (·.proto) = some .ib := by
  decide +kernel

/-! ### Witnesses: the encoding -/

theorem witness_EncodedInstructionsDecodeBack : (Instr.cpBadState 5 0).wf = true ∧ (Instr.cpBadState 7 0xFF).wf = true ∧
    (Instr.ibBadState 6 0x20).wf = true ∧ (Instr.cpScanBFail 0x54).wf = true ∧ Instr.mapIb.wf = true := by decide
theorem witness_FirstMatchingRowApplies : (decodeW 0x500).mnemonic = "CP_BAD_STATE" ∧
    (decodeW 0xE00).mnemonic = "IB_BAD_STATE" ∧ Accepts .cp 0 0x55 (cpAt 0 0x55) := by
  refine ⟨by decide, by decide, by decide +kernel⟩
theorem witness_MalformedBytesAreRefusedByName : 16 ≤ (0x10 : Byte).toNat ∧ 16 ≤ (0xFF : Byte).toNat ∧
    decodeBytes [0x00, 0x0F] = .ok (.ibBadState 7 0x00) := ⟨by decide, by decide, rfl⟩

/-! ### Witnesses: one step -/

theorem witness_StepRunsTheDecodedRule :
    ((cpAt 0 0x55).nextEdge.rst = false ∧ (cpAt 0 0x55).nextEdge.inValid = true) ∧
    ({ cpAt 0 0 with inputs := [resetEdge .ib] } : State).nextEdge.rst = true ∧
    (({ cpAt 0 0 with inputs := [idleEdge] } : State).nextEdge.rst = false ∧
      ({ cpAt 0 0 with inputs := [idleEdge] } : State).nextEdge.inValid = false) := by decide
theorem witness_ResetStepWritesTheResetValues :
    ({ cpAt 3 0 with inputs := [⟨true, .ib, true, 0x20⟩] } : State).nextEdge.rst = true := by decide
theorem witness_ResetStateIsTheCustomProtocolReset :
    ({ ibAt 3 0 with inputs := [resetEdge .cp] } : State).inputs = [resetEdge .cp] := rfl
theorem witness_RepeatedResetsActAsTheLast :
    (∀ x ∈ [resetEdge .ib, resetEdge .cp], x.rst = true) ∧ (resetEdge .ib).rst = true := by decide
theorem witness_IdleStepOnlyClearsThePulses :
    ({ cpAt 2 0 with outValid := true, inputs := [idleEdge] } : State).nextEdge.rst = false ∧
    ({ cpAt 2 0 with outValid := true, inputs := [idleEdge] } : State).nextEdge.inValid = false := by decide
theorem witness_StepIgnoresUnsampledPorts : (acceptEdge 0x55).rst = false ∧ (resetEdge .ib).rst = true := by decide

/-! ### Witnesses: the Custom Protocol -/

theorem witness_CpScanARules : Accepts .cp 0 0x55 (cpAt 0 0x55) ∧ Accepts .cp 0 0x54 (cpAt 0 0x54) ∧
    (0x54 : Byte) ≠ 0x55 := by decide
theorem witness_CpScanBRules : Accepts .cp 1 0xFC (cpAt 1 0xFC) ∧ Accepts .cp 1 0x55 (cpAt 1 0x55) ∧
    Accepts .cp 1 0xFD (cpAt 1 0xFD) ∧ (0xFD : Byte) ≠ 0xFC ∧ (0xFD : Byte) ≠ 0x55 := by decide
theorem witness_CpPayloadByteRule : Accepts .cp 2 0xE7 { cpAt 2 0xE7 with ccnt := 13 } ∧
    ({ cpAt 2 0xE7 with ccnt := 13 } : State).ccnt.toNat < 14 ∧ (cpAt 2 0xFF).ccnt.toNat < 14 := by decide
theorem witness_CpCsumHiRule : Accepts .cp 3 0x06 (cpAt 3 0x06) := by decide
theorem witness_CpCsumLoRule : Accepts .cp 4 0x74 { cpAt 4 0x74 with ctrh := 6, csum := 0x0674 } ∧
    ({ cpAt 4 0x74 with ctrh := 6, csum := 0x0674 } : State).csum.toNat = 256 * 6 + (0x74 : Byte).toNat ∧
    ({ cpAt 4 0x75 with ctrh := 6, csum := 0x0674 } : State).csum.toNat ≠ 256 * 6 + (0x75 : Byte).toNat := by decide
/-- Each range of slots: 0, 5 and 6 of the payload's words, 7 and 13 of the zeros. -/
theorem witness_CpDecodeSlots : ((cpDecode pF2)[0]).toNat = 0 ∧ ((cpDecode pF2)[5]).toNat = 65535 ∧
    ((cpDecode pF2)[6]).toNat = 1600 ∧ (cpDecode pF2)[7] = 0 ∧ (cpDecode pF2)[13] = 0 := by decide +kernel
theorem witness_BadStateRules : Accepts .cp 5 0x55 (cpAt 5 0x55) ∧ Accepts .cp 7 0x00 (cpAt 7 0x00) ∧
    Accepts .ib 6 0x20 (ibAt 6 0x20) ∧ Accepts .ib 7 0x00 (ibAt 7 0x00) ∧ 5 ≤ (5 : BitVec 3).toNat ∧
    6 ≤ (6 : BitVec 3).toNat := by decide
theorem witness_UnusedCodesActAsInitial : Accepts .cp 5 0x12 (cpAt 5 0x12) ∧ Accepts .ib 7 0x20 (ibAt 7 0x20) ∧
    5 ≤ (5 : BitVec 3).toNat ∧ 6 ≤ (7 : BitVec 3).toNat := by decide

/-! ### Witnesses: IBUS -/

theorem witness_IbHdrARules : Accepts .ib 0 0x20 (ibAt 0 0x20) ∧ Accepts .ib 0 0x21 (ibAt 0 0x21) ∧
    (0x21 : Byte) ≠ 0x20 := by decide
theorem witness_IbHdrBRules : Accepts .ib 1 0x40 (ibAt 1 0x40) ∧ Accepts .ib 1 0x20 (ibAt 1 0x20) ∧
    (0x20 : Byte) ≠ 0x40 := by decide
theorem witness_IbIntLoRule : Accepts .ib 2 0xDC { ibAt 2 0xDC with iidx := 13 } ∧
    ({ ibAt 2 0xDC with iidx := 13 } : State).iidx.toNat < 14 := by decide
theorem witness_IbIntHiRule : Accepts .ib 3 0x05 { ibAt 3 0x05 with iidx := 13 } ∧
    ({ ibAt 3 0x05 with iidx := 13 } : State).iidx.toNat < 14 ∧ (ibAt 3 0x05).iidx.toNat < 14 := by decide
theorem witness_IbCheckARule : Accepts .ib 4 0x51 (ibAt 4 0x51) := by decide
theorem witness_IbCheckBRule : Accepts .ib 5 0xF3 { ibAt 5 0xF3 with iwcs := 0x0051, iacc := 0xF351 } ∧
    (0x0051 : Word) ||| ((0xF3 : Byte).setWidth 16 <<< 8) = 0xF351 ∧
    (0x0051 : Word) ||| ((0xF4 : Byte).setWidth 16 <<< 8) ≠ 0xF351 := by decide
/-- A byte in CHECK_A, one in CHECK_B, and one elsewhere. -/
theorem witness_WireChecksumIsKeptUntilCheckA :
    (∃ t, step { ibAt 4 0x51 with iwcs := 0xABCD } = .next t ∧ decide (t.iwcs = 0x0051) = true) ∧
    (∃ t, step { ibAt 5 0xF3 with iwcs := 0x0051 } = .next t ∧ decide (t.iwcs = 0xF351) = true) ∧
    (∃ t, step { ibAt 0 0x20 with iwcs := 0xF351 } = .next t ∧ decide (t.iwcs = 0xF351) = true) ∧
    (∀ st b, (ibAt st b).proto = .ib ∧ (ibAt st b).nextEdge.rst = false ∧ (ibAt st b).nextEdge.inValid = true ∧
      (ibAt st b).ist = st) :=
  ⟨of_after (by decide +kernel), of_after (by decide +kernel), of_after (by decide +kernel),
    fun _ _ => ⟨rfl, rfl, rfl, rfl⟩⟩
theorem witness_IbBytePairFillsItsSlot : ({ ibAt 2 0xDC with iidx := 13 } : State).iidx.toNat < 14 := by decide
theorem witness_MissingSlotsLeaveTheRestDefined : 14 ≤ ({ cpAt 2 0 with ccnt := 14 } : State).ccnt.toNat ∧
    14 ≤ ({ ibAt 2 0 with iidx := 14 } : State).iidx.toNat ∧ 14 ≤ ({ ibAt 3 0 with iidx := 15 } : State).iidx.toNat := by
  decide

/-! ### Witnesses: the mapper -/

/-- The clamp's boundary, 1022 and 1023. -/
theorem witness_CpAxesAreClampedAndCentred : (tCp 1021).toInt = 510 ∧ (tCp 1022).toInt = 511 ∧ (tCp 1023).toInt = 511 := by
  decide
/-- The wrap's boundary, 34267 and 34268. -/
theorem witness_IbAxesAreCentredModulo : (tIb 34267).toInt = 32767 ∧ (tIb 34268).toInt = -32768 := by decide
/-- The range's boundaries. -/
theorem witness_AxisRanges : (tIb 1000).toInt = -500 ∧ (tIb 2000).toInt = 500 ∧ (tIb 999).toInt = -501 ∧
    (tIb 2001).toInt = 501 := by decide
theorem witness_ReportDependsOnSixSlots :
    ∀ k : Fin 14, k.val < 6 → (cpDecode pF2)[k] = ((cpDecode pF2).set 6 7)[k] := by decide +kernel
/-- A wire word on each side of 1000: word 5 is 999 and word 0 is 1000. -/
theorem witness_CpAxisFromItsWireWord : (cpWord pF2 5).toNat = 999 ∧ (cpWord pF2 0).toNat = 1000 := by decide

/-! ### Witnesses: rules over every step, each a step that takes the clause in question -/

theorem witness_ProtoIsWrittenOnlyInReset :
    (∃ t, step { cpAt 0 0 with inputs := [resetEdge .ib] } = .next t ∧ decide (t.proto = .ib) = true) ∧
    (∃ t, step (ibAt 0 0x20) = .next t ∧ decide (t.proto = .ib) = true) :=
  ⟨of_after (by decide +kernel), of_after (by decide +kernel)⟩
theorem witness_InactiveParserHolds :
    (IbAtRest (cpAt 0 0x55) ∧ (cpAt 0 0x55).proto = .cp ∧ ∃ t, step (cpAt 0 0x55) = .next t ∧ true = true) ∧
    (CpAtRest (ibAt 0 0x20) ∧ (ibAt 0 0x20).proto = .ib ∧ ∃ t, step (ibAt 0 0x20) = .next t ∧ true = true) :=
  ⟨⟨by decide +kernel, rfl, of_after (by decide +kernel)⟩, ⟨by decide +kernel, rfl, of_after (by decide +kernel)⟩⟩
theorem witness_FrameAndReportChangeTogether :
    (∃ t, step (cpAt 0 0x55) = .next t ∧ (!t.outValid) = true) ∧
    (∃ t, step { cpAt 4 0x98 with ctrh := 5, csum := 0x0598, cbuf := pF2 } = .next t ∧ t.outValid = true) :=
  ⟨of_after (by decide +kernel), of_after (by decide +kernel)⟩
/-- A test mismatch with its emit, a CP checksum error, an IB checksum error, an IB emit. -/
theorem witness_PulsesAreSetExactlyByTheirEvents :
    (∃ t, step { cpAt 4 0x98 with ctrh := 5, csum := 0x0598, cbuf := pF2 } = .next t ∧
      (t.outValid && t.evTestMismatch) = true) ∧
    (∃ t, step { cpAt 4 0x97 with ctrh := 5, csum := 0x0598, cbuf := pF2 } = .next t ∧ t.evCsumErr = true) ∧
    (∃ t, step { ibAt 5 0xF4 with iwcs := 0x0051, iacc := 0xF351 } = .next t ∧ t.evCsumErr = true) ∧
    (∃ t, step { ibAt 5 0xF3 with iwcs := 0x0051, iacc := 0xF351 } = .next t ∧ t.outValid = true) :=
  ⟨of_after (by decide +kernel), of_after (by decide +kernel), of_after (by decide +kernel), of_after (by decide +kernel)⟩
theorem witness_PulsesExcludeEachOther :
    (∃ t, step { cpAt 4 0x98 with ctrh := 5, csum := 0x0598, cbuf := pF2 } = .next t ∧ t.evTestMismatch = true) ∧
    (∃ t, step (ibAt 0 0x20) = .next t ∧ decide (t.proto = .ib) = true) ∧
    ({ cpAt 4 0 with inputs := [resetEdge .cp] } : State).nextEdge.rst = true :=
  ⟨of_after (by decide +kernel), of_after (by decide +kernel), rfl⟩
theorem witness_EventTraceMatchesThePulses :
    (∃ t, exec (.cpCsumLo 0x98) { cpAt 4 0x98 with ctrh := 5, csum := 0x0598, cbuf := pF2 } = .next t ∧
      t.evTestMismatch = true) ∧
    (∃ t, exec (.ibCheckB 0xF4) { ibAt 5 0xF4 with iwcs := 0x0051, iacc := 0xF351 } = .next t ∧ t.evCsumErr = true) ∧
    (Instr.cpCsumLo 0x98).isMapper = false ∧ (Instr.ibCheckB 0xF4).isMapper = false :=
  ⟨of_after (by decide +kernel), of_after (by decide +kernel), rfl, rfl⟩
theorem witness_FramingErrorsAreSilent : (Accepts .cp 0 0x54 (cpAt 0 0x54) ∧ (0x54 : Byte) ≠ 0x55) ∧
    (Accepts .cp 1 0x55 (cpAt 1 0x55) ∧ (0x55 : Byte) ≠ 0xFC) ∧ (Accepts .ib 0 0x40 (ibAt 0 0x40) ∧ (0x40 : Byte) ≠ 0x20) ∧
    (Accepts .ib 1 0x20 (ibAt 1 0x20) ∧ (0x20 : Byte) ≠ 0x40) := by decide
/-- From an unused code: the byte of the step leads to a used one. -/
theorem witness_StepsWriteOnlyUsedCodes :
    (∃ t, step (cpAt 7 0x12) = .next t ∧ decide (t.proto = .cp) = true) ∧
    (∃ t, step (ibAt 6 0x12) = .next t ∧ decide (t.proto = .ib) = true) ∧
    (cpAt 7 0x12).nextEdge.inValid = true ∧ (ibAt 6 0x12).nextEdge.inValid = true :=
  ⟨of_after (by decide +kernel), of_after (by decide +kernel), rfl, rfl⟩

/-! ### Witnesses: good states -/

/-- A good CP state after its header, with the byte 0xFF on the ports. -/
theorem inv_cpAt2 : Inv (cpAt 2 0xFF) :=
  ⟨⟨by decide, by decide +kernel, by decide +kernel⟩, by decide, Or.inl ⟨rfl, rfl, rfl⟩, by decide +kernel⟩

/-- A good IB state after its header, with the byte 0xDC on the ports. -/
theorem inv_ibAt2 : Inv { ibAt 2 0xDC with iacc := 0xFF9F } :=
  ⟨⟨by decide, ⟨by decide, by decide +kernel, fun h => absurd h (by decide), by decide⟩, by decide +kernel⟩, by decide,
    Or.inl ⟨rfl, rfl, rfl⟩, by decide +kernel⟩

theorem witness_EveryStepKeepsTheInvariant :
    (Inv (cpAt 2 0xFF) ∧ ∃ t, step (cpAt 2 0xFF) = .next t ∧ decide (t.csum = 0x00FF) = true) ∧
    (Inv { ibAt 2 0xDC with iacc := 0xFF9F } ∧
      ∃ t, step { ibAt 2 0xDC with iacc := 0xFF9F } = .next t ∧ decide (t.iacc = 0xFEC3) = true) :=
  ⟨⟨inv_cpAt2, of_after (by decide +kernel)⟩, ⟨inv_ibAt2, of_after (by decide +kernel)⟩⟩
theorem witness_FramesTakeAFixedNumberOfBytes : Accepts .cp 1 0xFC (cpAt 1 0xFC) ∧ Accepts .ib 1 0x40 (ibAt 1 0x40) ∧
    (Inv (cpAt 2 0xFF) ∧ 0 < bytesLeft (cpAt 2 0xFF) ∧ (cpAt 2 0xFF).nextEdge.rst = false) ∧
    (Inv { ibAt 2 0xDC with iacc := 0xFF9F } ∧ 0 < bytesLeft { ibAt 2 0xDC with iacc := 0xFF9F }) :=
  ⟨by decide, by decide, ⟨inv_cpAt2, by decide, rfl⟩, inv_ibAt2, by decide⟩

/-! ### Witnesses: frames and streams -/

/-- CP-F2 on the ports. -/
def cpF2 : State := { State.resetWith .cp with inputs := feed (cpPacket pF2 0x0598) }

/-- S2's frame on the ports. -/
def ibS2 : State := { State.resetWith .ib with inputs := feed (ibfWith c1500 0xF351) }

/-- A valid trailer, with a test word that differs, and CP-F2 with another one. -/
theorem witness_CpPacketEmitsExactlyWhenValid : cpF2.proto = .cp ∧ cpF2.cst = 0 ∧
    cpF2.inputs = feed (cpPacket pF2 0x0598) ++ [] ∧ (0x0598 : Word) = cpSum pF2.toList ∧ cpWord pF2 6 ≠ cpWord pF2 2 ∧
    (0x0599 : Word) ≠ cpSum pF2.toList := by
  refine ⟨rfl, rfl, (List.append_nil _).symm, ?_⟩
  decide +kernel
theorem witness_IbFrameEmitsExactlyWhenValid : ibS2.proto = .ib ∧ ibS2.ist = 0 ∧
    ibS2.inputs = feed (ibfWith c1500 0xF351) ++ [] ∧ (0xF351 : Word) = ibSum (ibBody c1500) ∧
    (0xF352 : Word) ≠ ibSum (ibBody c1500) := by
  refine ⟨rfl, rfl, (List.append_nil _).symm, ?_⟩
  decide +kernel
/-- The last summed position, 13, and a changed byte; a changed checksum byte. -/
theorem witness_ChecksumsSeeEverySingleByte : (0x00 : Byte) ≠ 0xFF ∧ (List.replicate 13 (0x00 : Byte)).length < 14 ∧
    (0x3E : Byte) ≠ 0x3F := by decide
theorem witness_ChecksumsDoNotSeeTheOrder : (0x05 :: 0xE7 :: List.replicate 12 (0x00 : Byte)).Perm
    (0xE7 :: 0x05 :: List.replicate 12 (0x00 : Byte)) ∧ (0x05 :: 0xE7 :: List.replicate 12 (0x00 : Byte)).length ≤ 14 :=
  ⟨List.Perm.swap _ _ _, by decide⟩
theorem witness_GapsInTheInputDoNotMatter : ∀ e ∈ [acceptEdge 0x55, idleEdge, acceptEdge 0xFC], e.rst = false := by decide
/-- Two states that differ in every working register. -/
theorem witness_WorkingRegistersLeaveNoTrace :
    let s := cpAt 0 0x55
    let s' := { cpAt 0 0x55 with ccnt := 14, cbuf := p1511, csum := 0x0674, ctrh := 6, iidx := 9, iacc := 0, ich := c1500 }
    s.proto = s'.proto ∧ Searching s ∧ Searching s' ∧ s.fr = s'.fr ∧ s.report = s'.report ∧ [acceptEdge 0x55] ≠ [] := by
  decide +kernel
theorem witness_ReportsAreAFrameApart :
    (Searching cpF2 ∧ ∃ t, runSteps 18 cpF2 = .next t ∧ (t.outValid && decide (t.proto = .cp)) = true) ∧
    (Searching ibS2 ∧ ∃ t, runSteps 32 ibS2 = .next t ∧ (t.outValid && decide (t.proto = .ib)) = true) ∧
    (∃ t, runSteps 19 { ibS2 with inputs := resetEdge .cp :: cpF2.inputs } = .next t ∧
      (t.outValid && decide (t.proto = .cp)) = true) ∧
    (∃ t, runSteps 33 { cpF2 with inputs := resetEdge .ib :: ibS2.inputs } = .next t ∧
      (t.outValid && decide (t.proto = .ib)) = true) :=
  ⟨⟨by decide, of_after (by decide +kernel)⟩, ⟨by decide, of_after (by decide +kernel)⟩, of_after (by decide +kernel),
    of_after (by decide +kernel)⟩
theorem witness_CpHeaderSurvivesAnyRunOf55 :
    let s := { cpAt 0 0 with inputs := feed (List.replicate (2 + 1) 0x55 ++ [0xFC]) ++ [] }
    s.proto = .cp ∧ s.cst = 0 ∧ s.inputs = feed [0x55, 0x55, 0x55, 0xFC] := by decide
theorem witness_IbStrayHeaderLosesTheFrame :
    let s := { ibAt 0 0 with inputs := feed [0x20, 0x20, 0x40] ++ [acceptEdge 0xDC] }
    s.proto = .ib ∧ s.ist = 0 ∧ s.inputs.length = 4 := by decide

end Sys2Proof.Tests
end

section
/-! PROOFS. The facts about state operations that the proofs over all steps need: what `quiet` leaves in each field, how
the slots below an index change when one slot is written, and the state register's cases. -/

namespace Sys2Proof.Safety

open Sys2Proof.Machine

/-! quiet. -/

@[simp] theorem quiet_proto (s : State) : (quiet s).proto = s.proto := rfl
@[simp] theorem quiet_cst (s : State) : (quiet s).cst = s.cst := rfl
@[simp] theorem quiet_ccnt (s : State) : (quiet s).ccnt = s.ccnt := rfl
@[simp] theorem quiet_cbuf (s : State) : (quiet s).cbuf = s.cbuf := rfl
@[simp] theorem quiet_csum (s : State) : (quiet s).csum = s.csum := rfl
@[simp] theorem quiet_ctrh (s : State) : (quiet s).ctrh = s.ctrh := rfl
@[simp] theorem quiet_ist (s : State) : (quiet s).ist = s.ist := rfl
@[simp] theorem quiet_iidx (s : State) : (quiet s).iidx = s.iidx := rfl
@[simp] theorem quiet_iacc (s : State) : (quiet s).iacc = s.iacc := rfl
@[simp] theorem quiet_ich (s : State) : (quiet s).ich = s.ich := rfl
@[simp] theorem quiet_iwcs (s : State) : (quiet s).iwcs = s.iwcs := rfl
@[simp] theorem quiet_fr (s : State) : (quiet s).fr = s.fr := rfl
@[simp] theorem quiet_report (s : State) : (quiet s).report = s.report := rfl
@[simp] theorem quiet_outValid (s : State) : (quiet s).outValid = false := rfl
@[simp] theorem quiet_evCsumErr (s : State) : (quiet s).evCsumErr = false := rfl
@[simp] theorem quiet_evTestMismatch (s : State) : (quiet s).evTestMismatch = false := rfl
@[simp] theorem quiet_inputs (s : State) : (quiet s).inputs = s.inputs := rfl
@[simp] theorem quiet_edge (s : State) : (quiet s).edge = s.edge := rfl

/-! Slots and bytes. -/

/-- A slot index below the last slot does not wrap (R26, R31). -/
theorem toNat_succ_of_lt {i : BitVec 4} (h : i.toNat < 14) : (i + 1#4).toNat = i.toNat + 1 :=
  BitVec.toNat_add_of_lt (by simpa using (by omega : i.toNat + 1 < 16))

/-- Writing slot i adds its value to the slots up to i. -/
theorem take_succ_set {α : Type} {n i : Nat} (v : Vector α n) (a : α) (h : i < n) :
    (v.set i a).toList.take (i + 1) = v.toList.take i ++ [a] := by
  rw [Vector.toList_set, List.take_succ_eq_append_getElem (by simpa using h), List.take_set_of_le (Nat.le_refl i),
    List.getElem_set_self]

/-- Writing slot i leaves the slots below i. -/
theorem take_set_self {α : Type} {n i : Nat} (v : Vector α n) (a : α) (h : i < n) :
    (v.set i a).toList.take i = v.toList.take i := by
  rw [Vector.toList_set, List.take_set_of_le (Nat.le_refl i)]

/-- All slots of a register file are its contents. -/
theorem eq_of_take_eq {α : Type} {n : Nat} {v w : Vector α n} (h : v.toList.take n = w.toList.take n) : v = w := by
  rw [List.take_of_length_le (by simp), List.take_of_length_le (by simp)] at h
  exact Vector.toList_inj.mp h

theorem littleEndian_concat (l : List Word) (w : Word) :
    littleEndian (l ++ [w]) = littleEndian l ++ [loByte w, hiByte w] := by
  simp [littleEndian]

@[simp] theorem loByte_cat (hi lo : Byte) : loByte (cat hi lo) = lo := by
  apply BitVec.eq_of_toNat_eq
  simpa [loByte, cat_toNat] using lo.isLt

@[simp] theorem hiByte_cat (hi lo : Byte) : hiByte (cat hi lo) = hi := by
  apply BitVec.eq_of_toNat_eq
  simp [hiByte, cat_toNat, Nat.shiftRight_eq_div_pow]
  omega

/-- A word whose high byte is 0 takes its high byte by the OR (R146, R148). -/
theorem orHigh_of_hiByte_zero {v : Word} (h : hiByte v = 0) (b : Byte) : orHigh v b = cat b (loByte v) := by
  have hv : v = zext16 (loByte v) := by
    apply BitVec.eq_of_toNat_eq
    conv_lhs => rw [← cat_hiByte_loByte v, h, cat_toNat]
    simp
  conv_lhs => rw [hv, orHigh_zext16]

/-- Two frame bytes more (R86). -/
theorem ibSum_pair (l : List Byte) (a b : Byte) : ibSum (l ++ [a, b]) = ibSum (l ++ [a]) - zext16 b := by
  rw [← ibSum_concat, List.append_assoc]
  rfl

/-- TestMismatch compares the raw words 6 and 2 (R120). -/
theorem cpTestMismatch_iff (buf : Payload) : cpTestMismatch buf = true ↔ cpWord buf 6 ≠ cpWord buf 2 :=
  decide_eq_true_iff

/-! The unused state codes (R25, R30). -/

theorem ne_of_cp_unused {c : BitVec 3} (h : 5 ≤ c.toNat) : c ≠ 0#3 ∧ c ≠ 1#3 ∧ c ≠ 2#3 ∧ c ≠ 3#3 ∧ c ≠ 4#3 := by
  revert c; decide

theorem ne_of_ib_unused {c : BitVec 3} (h : 6 ≤ c.toNat) :
    c ≠ 0#3 ∧ c ≠ 1#3 ∧ c ≠ 2#3 ∧ c ≠ 3#3 ∧ c ≠ 4#3 ∧ c ≠ 5#3 := by
  revert c; decide

/-! The step, by kind of edge. -/

/-- A rule of the table always answers a next state (R91, R195). -/
theorem exec_answers (i : Instr) (s : State) : ∃ t, exec i s = .next t := by
  cases i with
  | cpCsumLo b =>
    simp only [exec, execCpCsumLo]
    split
    · split <;> exact ⟨_, rfl⟩
    · exact ⟨_, rfl⟩
  | ibCheckB b => simp only [exec, execIbCheckB]; split <;> exact ⟨_, rfl⟩
  | ibBadState st b => simp only [exec, execIbBadState]; split <;> exact ⟨_, rfl⟩
  | _ => exact ⟨_, rfl⟩

theorem step_reset {s : State} (r : s.nextEdge.rst = true) :
    step s = .next (s.afterEdge.resetStep s.nextEdge.protoSel) :=
  clockEdge_reset _ r

theorem step_idle {s : State} (r : s.nextEdge.rst = false) (v : s.nextEdge.inValid = false) :
    step s = .next (quiet s.afterEdge) :=
  clockEdge_idle _ r v

theorem step_cp {s : State} (r : s.nextEdge.rst = false) (v : s.nextEdge.inValid = true) (p : s.proto = .cp) :
    step s = exec (decodeCp s.cst s.nextEdge.inData) s.afterEdge :=
  (clockEdge_accept _ r v).trans (accept_cp (s := s.afterEdge) _ p)

theorem step_ib {s : State} (r : s.nextEdge.rst = false) (v : s.nextEdge.inValid = true) (p : s.proto = .ib) :
    step s = exec (decodeIb s.ist s.nextEdge.inData) s.afterEdge :=
  (clockEdge_accept _ r v).trans (accept_ib (s := s.afterEdge) _ p)

theorem step_answers (s : State) : ∃ t, step s = .next t := by
  cases r : s.nextEdge.rst with
  | true => exact ⟨_, step_reset r⟩
  | false =>
    cases v : s.nextEdge.inValid with
    | false => exact ⟨_, step_idle r v⟩
    | true =>
      cases p : s.proto with
      | cp => rw [step_cp r v p]; exact exec_answers _ _
      | ib => rw [step_ib r v p]; exact exec_answers _ _

end Sys2Proof.Safety
end

section
/-! PROOFS. What the rules of each parser keep, read off the cases of `CpEffect` and `IbEffect`: the other parser's
registers, the outputs, the pulses and IWCS; and that each case is what its rule does. -/

namespace Sys2Proof.Safety

open Sys2Proof.Machine

section CustomProtocol
variable {s t : State} {b : Byte}

/-- R21, R39: a CP rule leaves PROTO, the IB registers and the listed samples alone. -/
theorem CpEffect.frame (h : CpEffect s b t) : t.proto = s.proto ∧ t.inputs = s.inputs ∧
    t.ist = s.ist ∧ t.iidx = s.iidx ∧ t.iacc = s.iacc ∧ t.ich = s.ich ∧ t.iwcs = s.iwcs := by
  cases h <;> exact ⟨rfl, rfl, rfl, rfl, rfl, rfl, rfl⟩

/-- R37, R70: a CP rule emits the decoded payload, or leaves the frame and the report with OUT_VALID = 0. -/
theorem CpEffect.outputs (h : CpEffect s b t) :
    (t.fr = cpDecode s.cbuf ∧ t.report = mapReport s.proto t.fr) ∨
      (t.fr = s.fr ∧ t.report = s.report ∧ t.outValid = false) := by
  cases h with
  | emit c v => exact .inl ⟨rfl, rfl⟩
  | _ => exact .inr ⟨rfl, rfl, rfl⟩

/-- R118, R120: exactly when each pulse is 1 after a CP rule. -/
theorem CpEffect.pulses (h : CpEffect s b t) :
    (t.outValid = true ↔ s.cst = 4 ∧ s.csum = cat s.ctrh b) ∧
    (t.evCsumErr = true ↔ s.cst = 4 ∧ s.csum ≠ cat s.ctrh b) ∧
    (t.evTestMismatch = true ↔ s.cst = 4 ∧ s.csum = cat s.ctrh b ∧ cpWord s.cbuf 6 ≠ cpWord s.cbuf 2) := by
  cases h with
  | emit c v => simp [c, v, cpTestMismatch_iff]
  | drop c v => simp [c, v]
  | badSync c v => simp [ne_of_cp_unused c]
  | badSkip c v => simp [ne_of_cp_unused c]
  | _ c => simp [c]

/-- A case of `CpEffect` is what the rule of its state code and byte does: the converse of the inversion lemma. -/
theorem CpEffect.exec_eq (h : CpEffect s b t) : exec (decodeCp s.cst b) s = .next t := by
  cases h with
  | scanASync c v => rw [c, v]; rfl
  | scanASkip c v => rw [c]; exact congrArg (exec · s) (decodeCp_scanA_skip v)
  | scanBOk c v => rw [c, v]; rfl
  | scanBResync c v => rw [c, v]; rfl
  | scanBFail c v v' => rw [c]; exact congrArg (exec · s) (decodeCp_scanB_fail v v')
  | payload c =>
    rw [c]
    show exec (.cpPayloadByte b) s = _
    simp [exec, execCpPayloadByte, Params.cpCsumHi, c, quiet, State.clearPulses]
  | csumHi c => rw [c]; rfl
  | emit c v =>
    have hv : cpValid s.csum s.ctrh b = true := decide_eq_true v
    rw [c]
    show exec (.cpCsumLo b) s = _
    rw [exec, execCpCsumLo, if_pos hv]
    cases cpTestMismatch s.cbuf <;> rfl
  | drop c v =>
    have hv : cpValid s.csum s.ctrh b = false := decide_eq_false v
    rw [c]
    show exec (.cpCsumLo b) s = _
    rw [exec, execCpCsumLo, hv]
    rfl
  | badSync c v => rw [decodeCp_bad c, v]; rfl
  | badSkip c v =>
    have e : (if b = Params.cpHeaderA then Params.cpScanB else Params.cpScanA) = 0 := if_neg v
    rw [decodeCp_bad c, exec, execCpBadState, e]
    rfl

end CustomProtocol

section Ibus
variable {s t : State} {b : Byte}

/-- R21, R39: an IB rule leaves PROTO, the CP registers and the listed samples alone. -/
theorem IbEffect.frame (h : IbEffect s b t) : t.proto = s.proto ∧ t.inputs = s.inputs ∧
    t.cst = s.cst ∧ t.ccnt = s.ccnt ∧ t.cbuf = s.cbuf ∧ t.csum = s.csum ∧ t.ctrh = s.ctrh := by
  cases h <;> exact ⟨rfl, rfl, rfl, rfl, rfl, rfl, rfl⟩

/-- R37, R70: an IB rule emits ICH, or leaves the frame and the report with OUT_VALID = 0. -/
theorem IbEffect.outputs (h : IbEffect s b t) :
    (t.fr = s.ich ∧ t.report = mapReport s.proto t.fr) ∨
      (t.fr = s.fr ∧ t.report = s.report ∧ t.outValid = false) := by
  cases h with
  | emit c v => exact .inl ⟨rfl, rfl⟩
  | _ => exact .inr ⟨rfl, rfl, rfl⟩

/-- R148: exactly when each pulse is 1 after an IB rule. -/
theorem IbEffect.pulses (h : IbEffect s b t) :
    (t.outValid = true ↔ s.ist = 5 ∧ orHigh s.iwcs b = s.iacc) ∧
    (t.evCsumErr = true ↔ s.ist = 5 ∧ orHigh s.iwcs b ≠ s.iacc) ∧ t.evTestMismatch = false := by
  cases h with
  | emit c v => simp [c, v]
  | drop c v => simp [c, v]
  | badSync c v => simp [ne_of_ib_unused c]
  | badSkip c v => simp [ne_of_ib_unused c]
  | _ c => simp [c]

/-- R147, R148 (log entry 10): CHECK_A writes the byte to IWCS, CHECK_B ORs it in, no other rule writes it. -/
theorem IbEffect.iwcs (h : IbEffect s b t) :
    (¬(s.ist = 4 ∨ s.ist = 5) → t.iwcs = s.iwcs) ∧ (s.ist = 4 → t.iwcs = zext16 b) ∧
    (s.ist = 5 → t.iwcs = orHigh s.iwcs b) := by
  cases h with
  | badSync c v => simp [ne_of_ib_unused c]
  | badSkip c v => simp [ne_of_ib_unused c]
  | _ c => simp [c]

/-- A case of `IbEffect` is what the rule of its state code and byte does: the converse of the inversion lemma. -/
theorem IbEffect.exec_eq (h : IbEffect s b t) : exec (decodeIb s.ist b) s = .next t := by
  cases h with
  | hdrASync c v => rw [c, v]; rfl
  | hdrASkip c v => rw [c]; exact congrArg (exec · s) (decodeIb_hdrA_skip v)
  | hdrBOk c v => rw [c, v]; rfl
  | hdrBFail c v => rw [c]; exact congrArg (exec · s) (decodeIb_hdrB_fail v)
  | intLo c => rw [c]; rfl
  | intHi c =>
    rw [c]
    show exec (.ibIntHi b) s = _
    simp [exec, execIbIntHi, Params.ibStCheckA, Params.ibStIntLo, ibSumStep, quiet, State.clearPulses]
  | checkA c => rw [c]; rfl
  | emit c v =>
    have hv : ibValid s.iacc s.iwcs b = true := decide_eq_true v
    rw [c]
    show exec (.ibCheckB b) s = _
    rw [exec, execIbCheckB, if_pos hv]
    rfl
  | drop c v =>
    have hv : ibValid s.iacc s.iwcs b = false := decide_eq_false v
    rw [c]
    show exec (.ibCheckB b) s = _
    rw [exec, execIbCheckB, hv]
    rfl
  | badSync c v => rw [decodeIb_bad c, v]; rfl
  | badSkip c v => rw [decodeIb_bad c]; exact if_neg v

end Ibus

/-- Every step takes one listed sample off (log entry 1). -/
theorem step_inputs {s t : State} (h : step s = .next t) : t.inputs = s.inputs.tail := by
  cases step_effect h with
  | reset r h => rw [h]; rfl
  | idle r v h => rw [h]; rfl
  | cp r v p h =>
    obtain ⟨-, hin, -⟩ := h.frame
    exact hin
  | ib r v p h =>
    obtain ⟨-, hin, -⟩ := h.frame
    exact hin

end Sys2Proof.Safety
end

section
/-! PROOFS. The invariant of a good state: the reset states meet it and every step keeps it. Each clause of `Inv` has its
own lemma over the cases of `CpEffect` and `IbEffect`. -/

namespace Sys2Proof.Safety

open Sys2Proof.Machine

section CustomProtocol
variable {s t : State} {b : Byte}

/-- R25, R26: a CP rule keeps CST and CCNT in range. -/
theorem CpEffect.position (h : CpEffect s b t) (hs : CpPosition s) : CpPosition t := by
  obtain ⟨hst, hcnt, hpay, htr⟩ := hs
  cases h with
  | scanBOk c v => exact ⟨by simp, by simp, by simp, by simp⟩
  | payload c =>
    have hlt : s.ccnt.toNat < 14 := hpay c
    have hnext := toNat_succ_of_lt hlt
    by_cases h13 : s.ccnt.toNat = 13
    · rw [if_pos h13]
      exact ⟨by simp, hnext.trans_le hlt, by simp, fun _ => hnext.trans (by rw [h13])⟩
    · rw [if_neg h13]
      have hlt' : s.ccnt.toNat + 1 < 14 := by omega
      exact ⟨by simp, hnext.trans_le hlt, fun _ => hnext.trans_lt hlt', by simp⟩
  | csumHi c => exact ⟨by simp, hcnt, by simp, fun _ => htr (.inl c)⟩
  | scanASkip c v => exact ⟨hst, hcnt, hpay, htr⟩
  | _ => exact ⟨by simp, hcnt, by simp, by simp⟩

/-- R28, R83: a CP rule keeps CSUM the checksum of the payload bytes so far. -/
theorem CpEffect.summed (h : CpEffect s b t) (hp : CpPosition s) (hs : CpSummed s) : CpSummed t := by
  obtain ⟨-, -, hpay, -⟩ := hp
  cases h with
  | scanBOk c v => intro _; simp
  | payload c =>
    have hlt : s.ccnt.toNat < 14 := hpay c
    intro _
    show cpSumStep s.csum s.ccnt b = cpSum ((cbufWrite s.cbuf s.ccnt b).toList.take (s.ccnt + 1#4).toNat)
    rw [toNat_succ_of_lt hlt, cbufWrite_of_lt _ _ _ hlt, take_succ_set, hs (.inl c)]
    exact (cpSum_concat _ _ _ (by simpa using hlt.le)).symm
  | csumHi c => exact fun _ => hs (.inr (.inl c))
  | scanASkip c v => exact hs
  | _ => simp

end CustomProtocol

section Ibus
variable {s t : State} {b : Byte}

/-- R30, R31: an IB rule keeps IST and IIDX in range. -/
theorem IbEffect.position (h : IbEffect s b t) (hs : IbPosition s) : IbPosition t := by
  obtain ⟨hst, hidx, hch, hck⟩ := hs
  cases h with
  | hdrBOk c v => exact ⟨by simp, by simp, by simp, by simp⟩
  | hdrBFail c v => exact ⟨by simp, by simp, by simp, by simp⟩
  | intLo c => exact ⟨by simp, hidx, fun _ => hch (.inl c), by simp⟩
  | intHi c =>
    have hlt : s.iidx.toNat < 14 := hch (.inr c)
    have hnext := toNat_succ_of_lt hlt
    by_cases h13 : s.iidx.toNat = 13
    · rw [if_pos h13]
      exact ⟨by simp, hnext.trans_le hlt, by simp, fun _ => hnext.trans (by rw [h13])⟩
    · rw [if_neg h13]
      have hlt' : s.iidx.toNat + 1 < 14 := by omega
      exact ⟨by simp, hnext.trans_le hlt, fun _ => hnext.trans_lt hlt', by simp⟩
  | checkA c => exact ⟨by simp, hidx, by simp, fun _ => hck (.inl c)⟩
  | hdrASkip c v => exact ⟨hst, hidx, hch, hck⟩
  | _ => exact ⟨by simp, hidx, by simp, by simp⟩

/-- R32, R86: an IB rule keeps IACC the checksum of the frame's bytes so far. -/
theorem IbEffect.summed (h : IbEffect s b t) (hp : IbPosition s) (hs : IbSummed s) : IbSummed t := by
  obtain ⟨-, -, hch, -⟩ := hp
  obtain ⟨hB, hLo, hHi, hCk⟩ := hs
  cases h with
  | hdrASync c v => exact ⟨fun _ => rfl, by simp, by simp, by simp⟩
  | badSync c v => exact ⟨fun _ => rfl, by simp, by simp, by simp⟩
  | hdrBOk c v =>
    refine ⟨by simp, fun _ => ?_, by simp, by simp⟩
    show s.iacc - 0x40 = _
    rw [hB c]
    rfl
  | intLo c =>
    have hlt : s.iidx.toNat < 14 := hch (.inl c)
    refine ⟨by simp, by simp, fun _ => ?_, by simp⟩
    show hiByte (ichRead (ichWrite s.ich s.iidx (zext16 b)) s.iidx) = 0 ∧ s.iacc - zext16 b =
      ibSum (ibHeader ++ littleEndian ((ichWrite s.ich s.iidx (zext16 b)).toList.take s.iidx.toNat) ++
        [loByte (ichRead (ichWrite s.ich s.iidx (zext16 b)) s.iidx)])
    rw [ichWrite_of_lt _ _ _ hlt, ichRead_of_lt _ _ hlt, Vector.getElem_set_self, take_set_self, ibSum_concat,
      hLo (.inl c), loByte_zext16, hiByte_zext16]
    exact ⟨rfl, rfl⟩
  | intHi c =>
    have hlt : s.iidx.toNat < 14 := hch (.inr c)
    obtain ⟨hhi, hsum⟩ := hHi c
    have hnext : s.iacc - zext16 b = ibSum (ibHeader ++ littleEndian
        ((ichWrite s.ich s.iidx (orHigh (ichRead s.ich s.iidx) b)).toList.take (s.iidx + 1#4).toNat)) := by
      rw [toNat_succ_of_lt hlt, ichWrite_of_lt _ _ _ hlt, take_succ_set, littleEndian_concat,
        orHigh_of_hiByte_zero hhi, loByte_cat, hiByte_cat, ← List.append_assoc, ibSum_pair, ← hsum]
    refine ⟨?_, fun _ => hnext, ?_, ?_⟩ <;> dsimp only <;> split <;> simp
  | checkA c => exact ⟨by simp, fun _ => hLo (.inr (.inl c)), by simp, fun _ => hiByte_zext16 b⟩
  | hdrASkip c v => exact ⟨hB, hLo, hHi, hCk⟩
  | _ => exact ⟨by simp, by simp, by simp, by simp⟩

end Ibus

theorem parsers_cp {s : State} (p : s.proto = .cp) : Parsers s ↔ CpPosition s ∧ CpSummed s ∧ IbAtRest s := by
  simp only [Parsers, p]

theorem parsers_ib {s : State} (p : s.proto = .ib) : Parsers s ↔ IbPosition s ∧ IbSummed s ∧ CpAtRest s := by
  simp only [Parsers, p]

/-- The invariant does not speak of the model's own two fields (log entries 1 and 2). -/
theorem Inv.withPorts {s : State} (h : Inv s) (es : List Edge) (n : Nat) : Inv { s with inputs := es, edge := n } :=
  ⟨h.parsers, h.pulses, h.outputs, h.tail⟩

theorem Inv.quiet {s : State} (h : Inv s) : Inv (quiet s) :=
  ⟨h.parsers, ⟨by simp, by simp, fun _ => rfl⟩, h.outputs.imp_left fun ⟨hf, hr, _⟩ => ⟨hf, hr, rfl⟩, h.tail⟩

/-- Settles O46: both parsers are at rest, the frame and the report are zeros. -/
theorem resetIsAGoodState : Obligations.ResetIsAGoodState := by
  intro p
  have hcp : CpAtRest (State.resetWith p) := ⟨rfl, rfl, rfl, rfl, rfl⟩
  have hib : IbAtRest (State.resetWith p) := ⟨rfl, rfl, rfl, rfl, rfl⟩
  refine ⟨?_, ⟨nofun, nofun, fun _ => rfl⟩, .inl ⟨rfl, rfl, rfl⟩, fun _ k _ => ?_⟩
  · cases p with
    | cp => exact ⟨by decide, by decide, hib⟩
    | ib => exact ⟨by decide, by decide, hcp⟩
  · simp [State.resetWith]

/-- R37, R70: a rule that emits, or leaves the frame and the report with OUT_VALID = 0, keeps them in agreement. -/
theorem outputsAgree_of_emit_or_keep {s t : State} {f : Frame} (hproto : t.proto = s.proto)
    (h : (t.fr = f ∧ t.report = mapReport s.proto t.fr) ∨ (t.fr = s.fr ∧ t.report = s.report ∧ t.outValid = false))
    (hs : OutputsAgree s) : OutputsAgree t := by
  rcases h with ⟨-, hr⟩ | ⟨hf, hr, hv⟩
  · exact .inr (hproto ▸ hr)
  · rw [OutputsAgree, hf, hr, hv, hproto]
    exact hs.imp_left fun ⟨hf0, hr0, _⟩ => ⟨hf0, hr0, rfl⟩

theorem Inv.cp {s t : State} {b : Byte} (hs : Inv s) (p : s.proto = .cp) (h : CpEffect s b t) : Inv t := by
  obtain ⟨hproto, -, hist, hiidx, hiacc, hich, hiwcs⟩ := h.frame
  obtain ⟨hval, herr, htest⟩ := h.pulses
  obtain ⟨hpos, hsum, hrest⟩ := (parsers_cp p).mp hs.parsers
  refine ⟨?_, ?_, outputsAgree_of_emit_or_keep hproto h.outputs hs.outputs, ?_⟩
  · rw [parsers_cp (hproto.trans p)]
    exact ⟨h.position hpos, h.summed hpos hsum, by simpa only [IbAtRest, hist, hiidx, hiacc, hich, hiwcs] using hrest⟩
  · refine ⟨?_, ?_, ?_⟩
    · rw [hval, herr]
      exact fun ⟨⟨_, hne⟩, ⟨_, heq⟩⟩ => hne heq
    · rw [hval, htest]
      exact fun ⟨hst, heq, _⟩ => ⟨hst, heq⟩
    · simp [hproto, p]
  · intro _ k hk
    rcases h.outputs with ⟨hf, -⟩ | ⟨hf, -⟩ <;> rw [hf]
    · exact cpDecode_zero _ k hk
    · exact hs.tail p k hk

theorem Inv.ib {s t : State} {b : Byte} (hs : Inv s) (p : s.proto = .ib) (h : IbEffect s b t) : Inv t := by
  obtain ⟨hproto, -, hcst, hccnt, hcbuf, hcsum, hctrh⟩ := h.frame
  obtain ⟨hval, herr, htest⟩ := h.pulses
  obtain ⟨hpos, hsum, hrest⟩ := (parsers_ib p).mp hs.parsers
  refine ⟨?_, ?_, outputsAgree_of_emit_or_keep hproto h.outputs hs.outputs, ?_⟩
  · rw [parsers_ib (hproto.trans p)]
    exact ⟨h.position hpos, h.summed hpos hsum, by simpa only [CpAtRest, hcst, hccnt, hcbuf, hcsum, hctrh] using hrest⟩
  · refine ⟨?_, by simp [htest], fun _ => htest⟩
    rw [hval, herr]
    exact fun ⟨⟨_, hne⟩, ⟨_, heq⟩⟩ => hne heq
  · simp [CpTailZero, hproto, p]

/-- Settles O47: the cases of a step, each by the clauses of the invariant. -/
theorem everyStepKeepsTheInvariant : Obligations.EveryStepKeepsTheInvariant := by
  intro s t hs h
  have hs' : Inv s.afterEdge := hs.withPorts _ _
  cases step_effect h with
  | reset r h => subst h; exact (resetIsAGoodState _).withPorts _ _
  | idle r v h => subst h; exact hs'.quiet
  | cp r v p h => exact hs'.cp p h
  | ib r v p h => exact hs'.ib p h

end Sys2Proof.Safety
end

section
/-! PROOFS. Rules of the whole machine: PROTO, the parser at rest, the pulses, IWCS and the length of a frame, each from
the four cases of a step. -/

namespace Sys2Proof.Safety

open Sys2Proof.Machine

theorem parserOf_decodeCp (st : BitVec 3) (b : Byte) : parserOf (decodeCp st b) = some .cp := by
  unfold decodeCp
  split_ifs <;> rfl

theorem parserOf_decodeIb (st : BitVec 3) (b : Byte) : parserOf (decodeIb st b) = some .ib := by
  unfold decodeIb
  split_ifs <;> rfl

/-- The decode word of a state selects a rule of the parser of PROTO (R21, R89). -/
theorem parserOf_decodeWord (s : State) (b : Byte) : parserOf (decodeW (s.decodeWord b)) = some s.proto := by
  unfold State.decodeWord
  cases s.proto with
  | cp => rw [decodeW_mkW_cp, parserOf_decodeCp]
  | ib => rw [decodeW_mkW_ib, parserOf_decodeIb]

/-- Settles O38: a reset writes PROTO, and the frame of each parser's rules has it unchanged. -/
theorem protoIsWrittenOnlyInReset : Obligations.ProtoIsWrittenOnlyInReset := by
  intro s t h
  refine ⟨?_, ?_, parserOf_decodeWord _ _⟩
  · intro hr
    rw [step_reset hr] at h
    cases h
    rfl
  · intro hr
    cases step_effect h with
    | reset r h => rw [r] at hr; cases hr
    | idle r v h => rw [h]; rfl
    | cp r v p h => exact h.frame.1
    | ib r v p h => exact h.frame.1

/-- Settles O39: a reset leaves both parsers at rest, and a rule leaves the registers of the other parser alone. -/
theorem inactiveParserHolds : Obligations.InactiveParserHolds := by
  intro s t h
  cases step_effect h with
  | reset r h =>
    subst h
    refine ⟨fun _ ho => ?_, fun _ ho => ?_,
      fun _ _ => ⟨fun _ => ⟨rfl, rfl, rfl, rfl, rfl⟩, fun _ => ⟨rfl, rfl, rfl, rfl, rfl⟩⟩⟩
    · obtain ⟨hist, hiidx, hiacc, hich, hiwcs⟩ := ho.resolve_left (by simp [r])
      exact ⟨hist.symm, hiidx.symm, hiacc.symm, hich.symm, hiwcs.symm⟩
    · obtain ⟨hcst, hccnt, hcbuf, hcsum, hctrh⟩ := ho.resolve_left (by simp [r])
      exact ⟨hcst.symm, hccnt.symm, hcbuf.symm, hcsum.symm, hctrh.symm⟩
  | idle r v h =>
    subst h
    exact ⟨fun _ _ => ⟨rfl, rfl, rfl, rfl, rfl⟩, fun _ _ => ⟨rfl, rfl, rfl, rfl, rfl⟩, fun hi hc => ⟨hi, hc⟩⟩
  | cp r v p h =>
    obtain ⟨hproto, -, hist, hiidx, hiacc, hich, hiwcs⟩ := h.frame
    refine ⟨fun _ _ => ⟨hist, hiidx, hiacc, hich, hiwcs⟩, fun p' => ?_, fun hi _ => ⟨fun _ => ?_, fun p' => ?_⟩⟩
    · rw [p] at p'; cases p'
    · rw [IbAtRest, hist, hiidx, hiacc, hich, hiwcs]
      exact hi p
    · rw [hproto] at p'; cases p.symm.trans p'
  | ib r v p h =>
    obtain ⟨hproto, -, hcst, hccnt, hcbuf, hcsum, hctrh⟩ := h.frame
    refine ⟨fun p' => ?_, fun _ _ => ⟨hcst, hccnt, hcbuf, hcsum, hctrh⟩, fun _ hc => ⟨fun p' => ?_, fun _ => ?_⟩⟩
    · rw [p] at p'; cases p'
    · rw [hproto] at p'; cases p.symm.trans p'
    · rw [CpAtRest, hcst, hccnt, hcbuf, hcsum, hctrh]
      exact hc p

/-- Settles O41: a reset and an idle step raise nothing, and each parser's rules as `pulses` says. -/
theorem pulsesAreSetExactlyByTheirEvents : Obligations.PulsesAreSetExactlyByTheirEvents := by
  intro s t h
  cases step_effect h with
  | reset r h => subst h; simp [r]
  | idle r v h => subst h; simp [r, v]
  | cp r v p h =>
    obtain ⟨hval, herr, htest⟩ := h.pulses
    simp [hval, herr, htest, r, v, p]
  | ib r v p h =>
    obtain ⟨hval, herr, htest⟩ := h.pulses
    simp [hval, herr, htest, r, v, p]

/-- Settles O58: no CP rule writes IWCS, and of the IB rules the two of the checksum. -/
theorem wireChecksumIsKeptUntilCheckA : Obligations.WireChecksumIsKeptUntilCheckA := by
  intro s t h hr
  cases step_effect h with
  | reset r h => rw [r] at hr; cases hr
  | idle r v h => subst h; simp [v]
  | cp r v p h =>
    obtain ⟨-, -, -, -, -, -, hiwcs⟩ := h.frame
    simp [p, hiwcs]
  | ib r v p h =>
    obtain ⟨hkeep, hA, hB⟩ := h.iwcs
    refine ⟨fun hn => hkeep fun hst => hn ⟨p, v, hst⟩, fun _ _ hst => ?_, fun _ _ hst => hB hst⟩
    rw [hA hst, zext16_toNat]

/-! The bytes a frame still takes. -/

theorem bytesLeft_cp {s : State} (p : s.proto = .cp) : bytesLeft s =
    if s.cst = 2 then 16 - s.ccnt.toNat else if s.cst = 3 then 2 else if s.cst = 4 then 1 else 0 := by
  simp only [bytesLeft, p, Params.cpPacketBytes_eq]

theorem bytesLeft_ib {s : State} (p : s.proto = .ib) : bytesLeft s =
    if s.ist = 2 then 30 - 2 * s.iidx.toNat else if s.ist = 3 then 29 - 2 * s.iidx.toNat
    else if s.ist = 4 then 2 else if s.ist = 5 then 1 else 0 := by
  simp only [bytesLeft, p, Params.ibFrameBytes_eq]

theorem CpEffect.bytesLeft {s t : State} {b : Byte} (h : CpEffect s b t) (p : s.proto = .cp) (hs : CpPosition s)
    (hl : 0 < bytesLeft s) : bytesLeft t = bytesLeft s - 1 ∧ (bytesLeft t = 0 → t.cst = 0) := by
  obtain ⟨hproto, -⟩ := h.frame
  rw [bytesLeft_cp (hproto.trans p)]
  rw [bytesLeft_cp p] at hl ⊢
  obtain ⟨-, -, hpay, -⟩ := hs
  cases h with
  | payload c =>
    have hlt : s.ccnt.toNat < 14 := hpay c
    by_cases h13 : s.ccnt.toNat = 13
    · simp [c, h13]
    · simp [c, h13, -BitVec.toNat_add, toNat_succ_of_lt hlt]
      omega
  | badSync c v => simp [ne_of_cp_unused c] at hl
  | badSkip c v => simp [ne_of_cp_unused c] at hl
  | csumHi c => simp [c]
  | emit c v => simp [c]
  | drop c v => simp [c]
  | _ c => simp [c] at hl

theorem IbEffect.bytesLeft {s t : State} {b : Byte} (h : IbEffect s b t) (p : s.proto = .ib) (hs : IbPosition s)
    (hl : 0 < bytesLeft s) : bytesLeft t = bytesLeft s - 1 ∧ (bytesLeft t = 0 → t.ist = 0) := by
  obtain ⟨hproto, -⟩ := h.frame
  rw [bytesLeft_ib (hproto.trans p)]
  rw [bytesLeft_ib p] at hl ⊢
  obtain ⟨-, -, hch, -⟩ := hs
  cases h with
  | intLo c =>
    have hlt : s.iidx.toNat < 14 := hch (.inl c)
    simp [c]
    omega
  | intHi c =>
    have hlt : s.iidx.toNat < 14 := hch (.inr c)
    by_cases h13 : s.iidx.toNat = 13
    · simp [c, h13]
    · simp [c, h13, -BitVec.toNat_add, toNat_succ_of_lt hlt]
      omega
  | badSync c v => simp [ne_of_ib_unused c] at hl
  | badSkip c v => simp [ne_of_ib_unused c] at hl
  | checkA c => simp [c]
  | emit c v => simp [c]
  | drop c v => simp [c]
  | _ c => simp [c] at hl

/-- Settles O48: the confirmed headers by running their rule, the bytes after them by the position clauses of `Inv`. -/
theorem framesTakeAFixedNumberOfBytes : Obligations.FramesTakeAFixedNumberOfBytes := by
  refine ⟨?_, ?_, ?_⟩
  · intro s ⟨p, c, r, v, hb⟩
    rw [State.activeCode_cp p] at c
    refine ⟨_, by rw [step_cp r v p, c, hb]; rfl, ?_⟩
    rw [bytesLeft_cp (by exact p)]
    rfl
  · intro s ⟨p, c, r, v, hb⟩
    rw [State.activeCode_ib p] at c
    refine ⟨_, by rw [step_ib r v p, c, hb]; rfl, ?_⟩
    rw [bytesLeft_ib (by exact p)]
    rfl
  · intro s hs hl r
    obtain ⟨t, h⟩ := step_answers s
    refine ⟨t, h, ?_⟩
    cases step_effect h with
    | reset r' h => rw [r] at r'; cases r'
    | idle r v h =>
      have ht : bytesLeft t = bytesLeft s := by rw [h]; rfl
      rw [ht, v]
      exact ⟨rfl, fun h0 => absurd h0 hl.ne'⟩
    | cp r v p h =>
      obtain ⟨hpos, -⟩ := (parsers_cp p).mp hs.parsers
      rw [v, Searching, State.activeCode_cp (h.frame.1.trans p)]
      exact h.bytesLeft p hpos hl
    | ib r v p h =>
      obtain ⟨hpos, -⟩ := (parsers_ib p).mp hs.parsers
      rw [v, Searching, State.activeCode_ib (h.frame.1.trans p)]
      exact h.bytesLeft p hpos hl

end Sys2Proof.Safety
end

section
/-! PROOFS. Reset, totality and the ports. -/

namespace Sys2Proof.Safety

open Sys2Proof.Machine

/-- Settles O8: the reset step of R210 writes the values of R43. -/
theorem resetStepWritesTheResetValues : Obligations.ResetStepWritesTheResetValues := by
  intro s r
  rw [step_reset r]
  rfl

/-- Settles O9: the one listed sample is taken, and it is a reset with `proto_sel` = 0. -/
theorem resetStateIsTheCustomProtocolReset : Obligations.ResetStateIsTheCustomProtocolReset := by
  refine ⟨fun s hin => ?_, rfl, rfl⟩
  have he : s.nextEdge = resetEdge .cp := State.nextEdge_of_inputs hin
  rw [step_reset (by rw [he]; rfl), he, State.resetStep, State.afterEdge_inputs, hin]
  rfl

/-- Settles O13: every kind of edge has an answer, and `in_ready` is a constant. -/
theorem everyStepAnswersANextState : Obligations.EveryStepAnswersANextState :=
  fun s => ⟨rfl, step_answers s⟩

/-- Settles O14: the six report ports are the report's elements in R36's order. -/
theorem outputPortsShowTheirRegisters : Obligations.OutputPortsShowTheirRegisters := by
  intro s
  refine ⟨rfl, rfl, ?_, rfl, rfl, rfl⟩
  ext i hi
  interval_cases i <;> rfl

/-- Settles O37: either mapper row, run on the state with the frame written, maps that frame. -/
theorem emitRunsTheMapperRowOfProto : Obligations.EmitRunsTheMapperRowOfProto := by
  intro f s
  refine ⟨{ s with fr := f, report := mapReport s.proto f }, ?_, rfl, rfl⟩
  rw [decodeSelector, Proto.ofBit_bit]
  cases s.proto <;> rfl

end Sys2Proof.Safety
end

section
/-! PROOFS. What the working registers hold before a header reaches no output: two runs on the same edges stay in `Alike`,
the relation that compares only the registers a frame in progress has already written. -/

namespace Sys2Proof.Safety

open Sys2Proof.Machine

/-- The ports show FR and REPORT (R23). -/
theorem fr_report_of_outputs_eq {s s' : State} (h : s.outputs = s'.outputs) : s.fr = s'.fr ∧ s.report = s'.report := by
  obtain ⟨-, -, hr, hf, -⟩ := outputPortsShowTheirRegisters s
  obtain ⟨-, -, hr', hf', -⟩ := outputPortsShowTheirRegisters s'
  rw [← hf, ← hr, ← hf', ← hr', h]
  exact ⟨rfl, rfl⟩

/-- The CP registers that a frame in progress has written are the same in both states, CBUF as far as it is filled. -/
def CpAlike (s s' : State) : Prop :=
  s.cst = s'.cst ∧
  (s.cst = 2 → s.ccnt = s'.ccnt ∧ s.ccnt.toNat < 14 ∧ s.csum = s'.csum ∧
    s.cbuf.toList.take s.ccnt.toNat = s'.cbuf.toList.take s.ccnt.toNat) ∧
  (s.cst = 3 ∨ s.cst = 4 → s.csum = s'.csum ∧ s.cbuf = s'.cbuf) ∧
  (s.cst = 4 → s.ctrh = s'.ctrh)

/-- The IB registers that a frame in progress has written are the same in both states, ICH as far as it is filled. -/
def IbAlike (s s' : State) : Prop :=
  s.ist = s'.ist ∧
  (s.ist ≠ 0 → s.iacc = s'.iacc) ∧
  (s.ist = 2 ∨ s.ist = 3 → s.iidx = s'.iidx ∧ s.iidx.toNat < 14 ∧
    s.ich.toList.take s.iidx.toNat = s'.ich.toList.take s.iidx.toNat) ∧
  (s.ist = 3 → ichRead s.ich s.iidx = ichRead s'.ich s.iidx) ∧
  (s.ist = 4 ∨ s.ist = 5 → s.ich = s'.ich) ∧
  (s.ist = 5 → s.iwcs = s'.iwcs)

/-- Two states that the same edges keep indistinguishable on the ports. -/
structure Alike (s s' : State) : Prop where
  proto : s.proto = s'.proto
  inputs : s.inputs = s'.inputs
  fr : s.fr = s'.fr
  report : s.report = s'.report
  cp : s.proto = .cp → CpAlike s s'
  ib : s.proto = .ib → IbAlike s s'

/-- Before a CP header is confirmed nothing but CST counts. -/
theorem cpAlike_of_search {s s' : State} (h : s.cst = s'.cst) (hc : s.cst = 0 ∨ s.cst = 1) : CpAlike s s' := by
  refine ⟨h, ?_⟩
  rcases hc with hc | hc <;> simp [hc]

/-- In HDR_A nothing but IST counts. -/
theorem ibAlike_of_search {s s' : State} (h : s.ist = s'.ist) (hc : s.ist = 0) : IbAlike s s' :=
  ⟨h, by simp [hc]⟩

theorem quiet_outputs_eq {s s' : State} (hf : s.fr = s'.fr) (hr : s.report = s'.report) :
    (quiet s).outputs = (quiet s').outputs := by
  simp [State.outputs, hf, hr]

/-- A CP rule can be matched from a state that is alike, with the same outputs. -/
theorem CpEffect.of_alike {s s' t : State} {b : Byte} (h : CpEffect s b t) (ha : CpAlike s s')
    (hproto : s.proto = s'.proto) (hf : s.fr = s'.fr) (hr : s.report = s'.report) :
    ∃ t', CpEffect s' b t' ∧ CpAlike t t' ∧ t.outputs = t'.outputs := by
  have hq := quiet_outputs_eq hf hr
  have ⟨hst, hpay, htr, hhi⟩ := ha
  cases h with
  | scanASync c v => exact ⟨_, .scanASync (hst ▸ c) v, cpAlike_of_search rfl (.inr rfl), hq⟩
  | scanASkip c v => exact ⟨_, .scanASkip (hst ▸ c) v, ha, hq⟩
  | scanBOk c v => exact ⟨_, .scanBOk (hst ▸ c) v, ⟨rfl, by simp, by simp, by simp⟩, hq⟩
  | scanBResync c v => exact ⟨_, .scanBResync (hst ▸ c) v, cpAlike_of_search rfl (.inr rfl), hq⟩
  | scanBFail c v v' => exact ⟨_, .scanBFail (hst ▸ c) v v', cpAlike_of_search rfl (.inl rfl), hq⟩
  | payload c =>
    obtain ⟨hcnt, hlt, hsum, hbuf⟩ := hpay c
    refine ⟨_, .payload (hst ▸ c), ?_, hq⟩
    have hnext : (s.ccnt + 1#4).toNat = s.ccnt.toNat + 1 := toNat_succ_of_lt hlt
    have hbuf' : (s.cbuf.set s.ccnt.toNat b hlt).toList.take (s.ccnt.toNat + 1) =
        (s'.cbuf.set s.ccnt.toNat b hlt).toList.take (s.ccnt.toNat + 1) := by
      rw [take_succ_set, take_succ_set, hbuf]
    rw [← hcnt, ← hsum, cbufWrite_of_lt _ _ _ hlt, cbufWrite_of_lt _ _ _ hlt]
    by_cases h13 : s.ccnt.toNat = 13
    · rw [if_pos h13]
      simp only [h13] at hbuf' ⊢
      exact ⟨rfl, by simp, fun _ => ⟨rfl, eq_of_take_eq hbuf'⟩, by simp⟩
    · rw [if_neg h13]
      have hlt' : s.ccnt.toNat + 1 < 14 := by omega
      exact ⟨rfl, fun _ => ⟨rfl, hnext.trans_lt hlt', rfl, hnext ▸ hbuf'⟩, by simp, by simp⟩
  | csumHi c => exact ⟨_, .csumHi (hst ▸ c), ⟨rfl, by simp, fun _ => htr (.inl c), fun _ => rfl⟩, hq⟩
  | emit c v =>
    obtain ⟨hsum, hbuf⟩ := htr (.inr c)
    refine ⟨_, .emit (hst ▸ c) (by rw [← hsum, ← hhi c, v]), cpAlike_of_search rfl (.inl rfl), ?_⟩
    simp [State.outputs, hproto, hbuf]
  | drop c v =>
    obtain ⟨hsum, -⟩ := htr (.inr c)
    refine ⟨_, .drop (hst ▸ c) (by rwa [← hsum, ← hhi c]), cpAlike_of_search rfl (.inl rfl), ?_⟩
    simp [State.outputs, hf, hr]
  | badSync c v => exact ⟨_, .badSync (hst ▸ c) v, cpAlike_of_search rfl (.inr rfl), hq⟩
  | badSkip c v => exact ⟨_, .badSkip (hst ▸ c) v, cpAlike_of_search rfl (.inl rfl), hq⟩

/-- An IB rule can be matched from a state that is alike, with the same outputs. -/
theorem IbEffect.of_alike {s s' t : State} {b : Byte} (h : IbEffect s b t) (ha : IbAlike s s')
    (hproto : s.proto = s'.proto) (hf : s.fr = s'.fr) (hr : s.report = s'.report) :
    ∃ t', IbEffect s' b t' ∧ IbAlike t t' ∧ t.outputs = t'.outputs := by
  have hq := quiet_outputs_eq hf hr
  have ⟨hst, hacc, hch, hlo, hck, hwcs⟩ := ha
  cases h with
  | hdrASync c v =>
    exact ⟨_, .hdrASync (hst ▸ c) v, ⟨rfl, fun _ => rfl, by simp, by simp, by simp, by simp⟩, hq⟩
  | hdrASkip c v => exact ⟨_, .hdrASkip (hst ▸ c) v, ha, hq⟩
  | hdrBOk c v =>
    refine ⟨_, .hdrBOk (hst ▸ c) v, ?_, hq⟩
    rw [← hacc (by simp [c])]
    exact ⟨rfl, fun _ => rfl, by simp, by simp, by simp, by simp⟩
  | hdrBFail c v => exact ⟨_, .hdrBFail (hst ▸ c) v, ibAlike_of_search rfl rfl, hq⟩
  | intLo c =>
    obtain ⟨hidx, hlt, hsl⟩ := hch (.inl c)
    refine ⟨_, .intLo (hst ▸ c), ?_, hq⟩
    rw [← hacc (by simp [c]), ← hidx, ichWrite_of_lt _ _ _ hlt, ichWrite_of_lt _ _ _ hlt]
    refine ⟨rfl, fun _ => rfl, fun _ => ⟨hidx, hlt, ?_⟩, fun _ => ?_, by simp, by simp⟩
    · exact (take_set_self _ _ hlt).trans (hsl.trans (take_set_self _ _ hlt).symm)
    · exact (ichRead_of_lt _ _ hlt).trans (by simp [ichRead_of_lt _ _ hlt])
  | intHi c =>
    obtain ⟨hidx, hlt, hsl⟩ := hch (.inr c)
    refine ⟨_, .intHi (hst ▸ c), ?_, hq⟩
    have hnext : (s.iidx + 1#4).toNat = s.iidx.toNat + 1 := toNat_succ_of_lt hlt
    rw [← hacc (by simp [c]), ← hidx, ← hlo c, ichWrite_of_lt _ _ _ hlt, ichWrite_of_lt _ _ _ hlt]
    generalize orHigh (ichRead s.ich s.iidx) b = w
    have hsl' : (s.ich.set s.iidx.toNat w hlt).toList.take (s.iidx.toNat + 1) =
        (s'.ich.set s.iidx.toNat w hlt).toList.take (s.iidx.toNat + 1) := by
      rw [take_succ_set, take_succ_set, hsl]
    by_cases h13 : s.iidx.toNat = 13
    · rw [if_pos h13]
      simp only [h13] at hsl' ⊢
      exact ⟨rfl, fun _ => rfl, by simp, by simp, fun _ => eq_of_take_eq hsl', by simp⟩
    · rw [if_neg h13]
      have hlt' : s.iidx.toNat + 1 < 14 := by omega
      exact ⟨rfl, fun _ => rfl, fun _ => ⟨rfl, hnext.trans_lt hlt', hnext ▸ hsl'⟩, by simp, by simp, by simp⟩
  | checkA c =>
    exact ⟨_, .checkA (hst ▸ c),
      ⟨rfl, fun _ => hacc (by simp [c]), by simp, by simp, fun _ => hck (.inl c), fun _ => rfl⟩, hq⟩
  | emit c v =>
    refine ⟨_, .emit (hst ▸ c) (by rw [← hwcs c, ← hacc (by simp [c]), v]), ibAlike_of_search rfl rfl, ?_⟩
    simp [State.outputs, hproto, hck (.inr c)]
  | drop c v =>
    refine ⟨_, .drop (hst ▸ c) (by rwa [← hwcs c, ← hacc (by simp [c])]), ibAlike_of_search rfl rfl, ?_⟩
    simp [State.outputs, hf, hr]
  | badSync c v =>
    exact ⟨_, .badSync (hst ▸ c) v, ⟨rfl, fun _ => rfl, by simp, by simp, by simp, by simp⟩, hq⟩
  | badSkip c v => exact ⟨_, .badSkip (hst ▸ c) v, ibAlike_of_search rfl rfl, hq⟩

/-- States after matching rules are alike again, since rules leave PROTO, take one sample off and give the same
outputs. -/
theorem Alike.of_outputs_eq {s s' t t' : State} (ha : Alike s s') (hproto : t.proto = s.proto)
    (hproto' : t'.proto = s'.proto) (hin : t.inputs = s.inputs.tail) (hin' : t'.inputs = s'.inputs.tail)
    (hout : t.outputs = t'.outputs) (hcp : s.proto = .cp → CpAlike t t') (hib : s.proto = .ib → IbAlike t t') :
    Alike t t' := by
  obtain ⟨hf, hr⟩ := fr_report_of_outputs_eq hout
  refine ⟨hproto.trans (ha.proto.trans hproto'.symm), ?_, hf, hr, hproto ▸ hcp, hproto ▸ hib⟩
  rw [hin, hin', ha.inputs]

/-- The simulation: the same edge keeps two states alike and their outputs the same. -/
theorem Alike.step {s s' t : State} (ha : Alike s s') (he : s.nextEdge = s'.nextEdge) (h : step s = .next t) :
    ∃ t', Machine.step s' = .next t' ∧ Alike t t' ∧ t.outputs = t'.outputs := by
  have hin : s.inputs.tail = s'.inputs.tail := congrArg List.tail ha.inputs
  cases step_effect h with
  | reset r h =>
    subst h
    refine ⟨_, step_reset (he ▸ r), ⟨congrArg Edge.protoSel he, hin, rfl, rfl, fun _ => ?_, fun _ => ?_⟩, rfl⟩
    · exact cpAlike_of_search rfl (.inl rfl)
    · exact ibAlike_of_search rfl rfl
  | idle r v h =>
    subst h
    exact ⟨_, step_idle (he ▸ r) (he ▸ v), ⟨ha.proto, hin, ha.fr, ha.report, ha.cp, ha.ib⟩,
      quiet_outputs_eq ha.fr ha.report⟩
  | cp r v p h =>
    obtain ⟨t', h', hcp, hout⟩ := h.of_alike (s' := s'.afterEdge) (ha.cp p) ha.proto ha.fr ha.report
    obtain ⟨hproto, hin, -⟩ := h.frame
    obtain ⟨hproto', hin', -⟩ := h'.frame
    have hs' := h'.exec_eq
    rw [he] at hs'
    exact ⟨t', (step_cp (he ▸ r) (he ▸ v) (ha.proto ▸ p)).trans hs',
      ha.of_outputs_eq hproto hproto' hin hin' hout (fun _ => hcp) (fun p' => by cases p.symm.trans p'), hout⟩
  | ib r v p h =>
    obtain ⟨t', h', hib, hout⟩ := h.of_alike (s' := s'.afterEdge) (ha.ib p) ha.proto ha.fr ha.report
    obtain ⟨hproto, hin, -⟩ := h.frame
    obtain ⟨hproto', hin', -⟩ := h'.frame
    have hs' := h'.exec_eq
    rw [he] at hs'
    exact ⟨t', (step_ib (he ▸ r) (he ▸ v) (ha.proto ▸ p)).trans hs',
      ha.of_outputs_eq hproto hproto' hin hin' hout (fun p' => by cases p.symm.trans p') (fun _ => hib), hout⟩

/-- A run over the listed edges keeps the outputs the same from its first edge on. -/
theorem Alike.run {s s' : State} (es : List Edge) (ha : Alike s s') (hes : s.inputs = es)
    (h0 : es = [] → s.outputs = s'.outputs) :
    ∃ t t', runSteps es.length s = .next t ∧ runSteps es.length s' = .next t' ∧ t.outputs = t'.outputs := by
  induction es generalizing s s' with
  | nil => exact ⟨s, s', rfl, rfl, h0 rfl⟩
  | cons e es ih =>
    have he : s.nextEdge = s'.nextEdge :=
      (State.nextEdge_of_inputs hes).trans (State.nextEdge_of_inputs (ha.inputs.symm.trans hes)).symm
    obtain ⟨u, hu⟩ := step_answers s
    obtain ⟨u', hu', hau, hout⟩ := ha.step he hu
    rw [List.length_cons, runSteps_succ _ hu, runSteps_succ _ hu']
    exact ih hau (by rw [step_inputs hu, hes]; rfl) fun _ => hout

/-- Settles O54: two states in the header search are `Alike`, and a run keeps them so. -/
theorem workingRegistersLeaveNoTrace : Obligations.WorkingRegistersLeaveNoTrace := by
  intro s s' es hproto hs hs' hf hr hne
  refine Alike.run es ⟨hproto, rfl, hf, hr, fun p => ?_, fun p => ?_⟩ rfl fun h => absurd h hne
  · have hc : s.cst = 0 := (State.activeCode_cp p).symm.trans hs
    have hc' : s'.cst = 0 := (State.activeCode_cp (hproto.symm.trans p)).symm.trans hs'
    exact cpAlike_of_search (hc.trans hc'.symm) (.inl hc)
  · have hc : s.ist = 0 := (State.activeCode_ib p).symm.trans hs
    have hc' : s'.ist = 0 := (State.activeCode_ib (hproto.symm.trans p)).symm.trans hs'
    exact ibAlike_of_search (hc.trans hc'.symm) hc

end Sys2Proof.Safety
end

section
/-! PROOFS. The three kinds of step: an idle one, a reset, and the rule that the bytes of the decode word select. -/

namespace Sys2Proof.Safety

open Sys2Proof.Machine

/-- The two bytes of a word decode to the row that the word selects (log entry 7). -/
theorem decodeBytes_wBytes (w : BitVec 12) : decodeBytes (wBytes w) = .ok (decodeW w) := by
  have htop : ((w.extractLsb' 8 4).setWidth 8).extractLsb' 4 4 = 0#4 := by
    apply BitVec.eq_of_toNat_eq
    simp only [BitVec.extractLsb'_toNat, BitVec.toNat_setWidth, BitVec.toNat_ofNat, Nat.shiftRight_eq_div_pow]
    omega
  have hw : ((w.extractLsb' 8 4).setWidth 8).extractLsb' 0 4 ++ w.extractLsb' 0 8 = w := by
    ext i hi
    simp only [BitVec.getElem_append, BitVec.getElem_extractLsb', BitVec.getLsbD_setWidth, BitVec.getLsbD_extractLsb']
    grind
  rw [wBytes, decodeBytes, if_pos htop, hw]

/-- A Custom-Protocol row that some byte selects is well-formed: its byte and its code are none of an earlier row's. -/
theorem wf_decodeCp (st : BitVec 3) (b : Byte) : (decodeCp st b).wf = true := by
  have hc : st = 0#3 ∨ st = 1#3 ∨ st = 2#3 ∨ st = 3#3 ∨ st = 4#3 ∨ 5 ≤ st.toNat := by revert st; decide
  rcases hc with rfl | rfl | rfl | rfl | rfl | hc
  · by_cases hb : b = 0x55#8
    · rw [hb]; rfl
    · rw [decodeCp_scanA_skip hb]; exact decide_eq_true hb
  · by_cases hb : b = 0xFC#8
    · rw [hb]; rfl
    · by_cases hb' : b = 0x55#8
      · rw [hb']; rfl
      · rw [decodeCp_scanB_fail hb hb']; simp [Instr.wf, hb, hb']
  · rfl
  · rfl
  · rfl
  · rw [decodeCp_bad hc, Instr.wf]
    revert st; decide

/-- An IBUS row that some byte selects is well-formed. -/
theorem wf_decodeIb (st : BitVec 3) (b : Byte) : (decodeIb st b).wf = true := by
  have hc : st = 0#3 ∨ st = 1#3 ∨ st = 2#3 ∨ st = 3#3 ∨ st = 4#3 ∨ st = 5#3 ∨ 6 ≤ st.toNat := by revert st; decide
  rcases hc with rfl | rfl | rfl | rfl | rfl | rfl | hc
  · by_cases hb : b = 0x20#8
    · rw [hb]; rfl
    · rw [decodeIb_hdrA_skip hb]; exact decide_eq_true hb
  · by_cases hb : b = 0x40#8
    · rw [hb]; rfl
    · rw [decodeIb_hdrB_fail hb]; exact decide_eq_true hb
  · rfl
  · rfl
  · rfl
  · rfl
  · rw [decodeIb_bad hc, Instr.wf]
    revert st; decide

/-- Every word selects a well-formed rule (R89, R91). -/
theorem wf_decodeW (w : BitVec 12) : (decodeW w).wf = true := by
  unfold decodeW
  cases wProto w with
  | cp => exact wf_decodeCp _ _
  | ib => exact wf_decodeIb _ _

/-- Settles O6: an accepting step runs the row of its own decode word, the other two kinds are `step_reset` and
`step_idle`. -/
theorem stepRunsTheDecodedRule : Obligations.StepRunsTheDecodedRule := fun s =>
  ⟨fun r v => ⟨decodeW (s.decodeWord s.nextEdge.inData), decodeBytes_wBytes _, wf_decodeW _, parserOf_decodeWord _ _,
    clockEdge_accept s.afterEdge r v⟩, step_reset, step_idle⟩

/-- Settles O11: the idle step is the state after the sampling with its pulses fallen. -/
theorem idleStepOnlyClearsThePulses : Obligations.IdleStepOnlyClearsThePulses :=
  fun _ r v => step_idle r v

end Sys2Proof.Safety
end

section
/-! PROOFS. FR, REPORT and OUT_VALID change together: in the rules of each parser, and so in every step. -/

namespace Sys2Proof.Safety

open Sys2Proof.Machine

/-- From s to t the frame and the report are kept with OUT_VALID = 0, or agree with OUT_VALID = 1 (R37, R70). -/
def KeepsOrEmits (s t : State) : Prop :=
  (t.outValid = false → t.fr = s.fr ∧ t.report = s.report) ∧ (t.outValid = true → t.report = mapReport t.proto t.fr)

theorem keepsOrEmits_of_keep {s t : State} (hv : t.outValid = false) (hf : t.fr = s.fr) (hr : t.report = s.report) :
    KeepsOrEmits s t :=
  ⟨fun _ => ⟨hf, hr⟩, fun hv' => nomatch hv.symm.trans hv'⟩

theorem keepsOrEmits_of_emit {s t : State} (hv : t.outValid = true) (hr : t.report = mapReport t.proto t.fr) :
    KeepsOrEmits s t :=
  ⟨fun hv' => (nomatch hv.symm.trans hv'), fun _ => hr⟩

/-- Of the CP rules the matching checksum alone emits (R118). -/
theorem CpEffect.keepsOrEmits {s t : State} {b : Byte} (h : CpEffect s b t) : KeepsOrEmits s t := by
  cases h with
  | emit c v => exact keepsOrEmits_of_emit rfl rfl
  | _ => exact keepsOrEmits_of_keep rfl rfl rfl

/-- Of the IB rules the matching checksum alone emits (R148). -/
theorem IbEffect.keepsOrEmits {s t : State} {b : Byte} (h : IbEffect s b t) : KeepsOrEmits s t := by
  cases h with
  | emit c v => exact keepsOrEmits_of_emit rfl rfl
  | _ => exact keepsOrEmits_of_keep rfl rfl rfl

/-- Settles O40: an idle step keeps the outputs with the pulses at 0, and each parser's rules keep or emit. -/
theorem frameAndReportChangeTogether : Obligations.FrameAndReportChangeTogether := by
  intro s t h hr
  cases step_effect h with
  | reset r h => rw [r] at hr; cases hr
  | idle r v h => subst h; exact keepsOrEmits_of_keep rfl rfl rfl
  | cp r v p h => exact h.keepsOrEmits
  | ib r v p h => exact h.keepsOrEmits

end Sys2Proof.Safety
end

section
/-! PROOFS. Gaps in the input leave no trace: an edge acts on `hold`, the part of the state that lasts, alone, and an idle
edge does not change it. -/

namespace Sys2Proof.Safety

open Sys2Proof.Machine

/-- What lasts of a step's outcome. -/
def holdNext : Host.Outcome State Fault Refusal → Host.Outcome State Fault Refusal
  | .next t => .next (hold t)
  | .fault r => .fault r
  | .refused r => .refused r

/-- A rule reads no pulse and none of the model's own two fields (R42); in the three rules with a branch, the branch
reads only what lasts, and so does each arm. -/
theorem holdNext_exec_hold (i : Instr) (s : State) : holdNext (exec i (hold s)) = holdNext (exec i s) := by
  cases i with
  | cpCsumLo b => simp only [exec, execCpCsumLo, apply_ite holdNext]; rfl
  | ibCheckB b => simp only [exec, execIbCheckB, apply_ite holdNext]; rfl
  | ibBadState st b => simp only [exec, execIbBadState, apply_ite holdNext]; rfl
  | _ => rfl

/-- An edge of any kind acts on what lasts alone: the decode word and the reset values read nothing else. -/
theorem holdNext_clockEdge_hold (e : Edge) (s : State) : holdNext (clockEdge e (hold s)) = holdNext (clockEdge e s) := by
  unfold clockEdge
  split_ifs
  · rfl
  · exact holdNext_exec_hold (decodeW (s.decodeWord e.inData)) s
  · rfl

/-- The same edge keeps two states equal in what lasts. -/
theorem hold_step_eq {s s' t t' : State} (hs : hold s = hold s') (he : s.nextEdge = s'.nextEdge)
    (h : step s = .next t) (h' : step s' = .next t') : hold t = hold t' := by
  have key : holdNext (step s) = holdNext (step s') := calc
    holdNext (step s) = holdNext (clockEdge s.nextEdge (hold s)) := (holdNext_clockEdge_hold _ s.afterEdge).symm
    _ = holdNext (clockEdge s'.nextEdge (hold s')) := by rw [hs, he]
    _ = holdNext (step s') := holdNext_clockEdge_hold _ s'.afterEdge
  rw [h, h'] at key
  exact Host.Outcome.next.inj key

/-- Runs over the listed edges, with and without their gaps, from states equal in what lasts (R61, R151). -/
theorem hold_run_filter_eq {s s' : State} (es : List Edge) (hrst : ∀ e ∈ es, e.rst = false) (hs : hold s = hold s')
    (hin : s.inputs = es) (hin' : s'.inputs = es.filter Edge.inValid) :
    ∃ t u, runSteps es.length s = .next t ∧ runSteps (es.filter Edge.inValid).length s' = .next u ∧
      hold t = hold u := by
  induction es generalizing s s' with
  | nil => exact ⟨s, s', rfl, rfl, hs⟩
  | cons e es ih =>
    have he : s.nextEdge = e := State.nextEdge_of_inputs hin
    obtain ⟨hr, hrst'⟩ := List.forall_mem_cons.mp hrst
    obtain ⟨t, ht⟩ := step_answers s
    have htin : t.inputs = es := by rw [step_inputs ht, hin]; rfl
    rw [List.length_cons, runSteps_succ _ ht]
    cases v : e.inValid with
    | false =>
      rw [List.filter_cons_of_neg (by simp [v])] at hin' ⊢
      have hidle := step_idle (s := s) (by rwa [he]) (by rwa [he])
      have hlast : hold t = hold s := by
        rw [hidle] at ht
        cases ht
        rfl
      exact ih hrst' (hlast.trans hs) htin hin'
    | true =>
      rw [List.filter_cons_of_pos v] at hin' ⊢
      obtain ⟨t', ht'⟩ := step_answers s'
      have htin' : t'.inputs = es.filter Edge.inValid := by rw [step_inputs ht', hin']; rfl
      have he' : s.nextEdge = s'.nextEdge := he.trans (State.nextEdge_of_inputs hin').symm
      rw [List.length_cons, runSteps_succ _ ht']
      exact ih hrst' (hold_step_eq hs he' ht ht') htin htin'

/-- Settles O53: both runs start from the same state but for the listed samples. -/
theorem gapsInTheInputDoNotMatter : Obligations.GapsInTheInputDoNotMatter :=
  fun _ es hrst => hold_run_filter_eq es hrst rfl rfl rfl

end Sys2Proof.Safety
end

section
/-! PROOFS. The encoding: every decode word is its three fields, each row's match value is written in them, and so the
encoder, the table and the decoder can be compared field by field. -/

namespace Sys2Proof

open Sys2Proof.Machine Sys2Proof.Safety

/-! W and its fields (R88). -/

@[simp] theorem Proto.bit_ofBit (b : BitVec 1) : (Proto.ofBit b).bit = b := by
  revert b; decide

/-- The fields of W make W up. -/
@[simp] theorem mkW_fields (w : BitVec 12) : mkW (wProto w) (wSt w) (wByte w) = w := by
  apply BitVec.eq_of_getLsbD_eq
  intro i hi
  rw [mkW_getLsbD, wProto, Proto.bit_ofBit, wSt, wByte]
  split_ifs with h8 h11
  · simp [h8]
  · simp [h11, show 8 + (i - 8) = i by omega]
  · simp [show i - 8 - 3 < 1 by omega, show 11 + (i - 8 - 3) = i by omega]

/-- Words with the same W have the same fields. -/
theorem mkW_inj {p p' : Proto} {st st' : BitVec 3} {b b' : Byte} :
    mkW p st b = mkW p' st' b' ↔ p = p' ∧ st = st' ∧ b = b' := by
  refine ⟨fun h => ⟨?_, ?_, ?_⟩, fun ⟨hp, hst, hb⟩ => by rw [hp, hst, hb]⟩
  · simpa using congrArg wProto h
  · simpa using congrArg wSt h
  · simpa using congrArg wByte h

/-- A match value with the byte put in is the word with that byte (R89). -/
theorem withByte_mkW (p : Proto) (st : BitVec 3) (b : Byte) : withByte (mkW p st 0) b = mkW p st b := by
  apply BitVec.eq_of_getLsbD_eq
  intro i hi
  rw [withByte, BitVec.getLsbD_or, BitVec.getLsbD_setWidth, mkW_getLsbD, mkW_getLsbD]
  by_cases h8 : i < 8
  · simp [h8, hi]
  · simp [h8, BitVec.getLsbD_of_ge b i (by omega)]

/-- A BAD_STATE row's match value with the code and the byte put in is the word with them (R89). -/
theorem withCode_mkW (p : Proto) (st : BitVec 3) (b : Byte) : withCode (mkW p 0 0) st b = mkW p st b := by
  have hst : mkW p 0 0 ||| (st.setWidth 12 <<< 8) = mkW p st 0 := by cases p <;> (revert st; decide)
  rw [← withByte_mkW p st, ← hst]
  rfl

/-- The codes of R25 and the unused ones. -/
theorem cp_code_cases (st : BitVec 3) : st = 0#3 ∨ st = 1#3 ∨ st = 2#3 ∨ st = 3#3 ∨ st = 4#3 ∨ 5 ≤ st.toNat := by
  revert st; decide

/-- The codes of R30 and the unused ones. -/
theorem ib_code_cases (st : BitVec 3) :
    st = 0#3 ∨ st = 1#3 ∨ st = 2#3 ∨ st = 3#3 ∨ st = 4#3 ∨ st = 5#3 ∨ 6 ≤ st.toNat := by
  revert st; decide

/-! The encoder: what the word written from each row's match value decodes to (R89). -/

theorem decodeW_withByte_cp (st : BitVec 3) (b : Byte) : decodeW (withByte (mkW .cp st 0) b) = decodeCp st b := by
  rw [withByte_mkW, decodeW_mkW_cp]

theorem decodeW_withByte_ib (st : BitVec 3) (b : Byte) : decodeW (withByte (mkW .ib st 0) b) = decodeIb st b := by
  rw [withByte_mkW, decodeW_mkW_ib]

theorem decodeW_withCode_cp (st : BitVec 3) (b : Byte) : decodeW (withCode (mkW .cp 0 0) st b) = decodeCp st b := by
  rw [withCode_mkW, decodeW_mkW_cp]

theorem decodeW_withCode_ib (st : BitVec 3) (b : Byte) : decodeW (withCode (mkW .ib 0 0) st b) = decodeIb st b := by
  rw [withCode_mkW, decodeW_mkW_ib]

/-- The codes of CP_BAD_STATE are the unused ones (R121). -/
theorem wf_cpBadState {st : BitVec 3} {b : Byte} (h : (Instr.cpBadState st b).wf = true) : 5 ≤ st.toNat := by
  rw [Instr.wf] at h
  revert st; decide

/-- The codes of IB_BAD_STATE are the unused ones (R149). -/
theorem wf_ibBadState {st : BitVec 3} {b : Byte} (h : (Instr.ibBadState st b).wf = true) : 6 ≤ st.toNat := by
  rw [Instr.wf] at h
  revert st; decide

/-- The word of a well-formed rule decodes to the rule. -/
theorem decodeW_of_encodeW {i : Instr} {w : BitVec 12} (hwf : i.wf = true) (h : encodeW i = some w) :
    decodeW w = i := by
  cases i with
  | mapCp => cases h
  | mapIb => cases h
  | cpScanASync => cases h; exact decodeW_withByte_cp 0 0x55
  | cpScanASkip b => cases h; exact (decodeW_withByte_cp 0 b).trans (decodeCp_scanA_skip (of_decide_eq_true hwf))
  | cpScanBOk => cases h; exact decodeW_withByte_cp 1 0xFC
  | cpScanBResync => cases h; exact decodeW_withByte_cp 1 0x55
  | cpScanBFail b =>
    obtain ⟨hB, hA⟩ := Bool.and_eq_true_iff.mp hwf
    cases h
    exact (decodeW_withByte_cp 1 b).trans (decodeCp_scanB_fail (of_decide_eq_true hB) (of_decide_eq_true hA))
  | cpPayloadByte b => cases h; exact decodeW_withByte_cp 2 b
  | cpCsumHi b => cases h; exact decodeW_withByte_cp 3 b
  | cpCsumLo b => cases h; exact decodeW_withByte_cp 4 b
  | cpBadState st b => cases h; exact (decodeW_withCode_cp st b).trans (decodeCp_bad (wf_cpBadState hwf) b)
  | ibHdrASync => cases h; exact decodeW_withByte_ib 0 0x20
  | ibHdrASkip b => cases h; exact (decodeW_withByte_ib 0 b).trans (decodeIb_hdrA_skip (of_decide_eq_true hwf))
  | ibHdrBOk => cases h; exact decodeW_withByte_ib 1 0x40
  | ibHdrBFail b => cases h; exact (decodeW_withByte_ib 1 b).trans (decodeIb_hdrB_fail (of_decide_eq_true hwf))
  | ibIntLo b => cases h; exact decodeW_withByte_ib 2 b
  | ibIntHi b => cases h; exact decodeW_withByte_ib 3 b
  | ibCheckA b => cases h; exact decodeW_withByte_ib 4 b
  | ibCheckB b => cases h; exact decodeW_withByte_ib 5 b
  | ibBadState st b => cases h; exact (decodeW_withCode_ib st b).trans (decodeIb_bad (wf_ibBadState hwf) b)

/-- Settles O2: a rule's two bytes decode as its word does, and a mapper row's one byte is its selector. -/
theorem encodedInstructionsDecodeBack : Obligations.EncodedInstructionsDecodeBack := by
  intro i hwf
  cases h : encodeW i with
  | some w =>
    have hbytes : encode i = wBytes w := by rw [encode, h]
    rw [hbytes, decodeBytes_wBytes, decodeW_of_encodeW hwf h]
  | none =>
    cases i with
    | mapCp => rfl
    | mapIb => rfl
    | _ => cases h

/-! The decoder's rows have their own words (R91). -/

theorem encodeW_decodeCp (st : BitVec 3) (b : Byte) : encodeW (decodeCp st b) = some (mkW .cp st b) := by
  rcases cp_code_cases st with rfl | rfl | rfl | rfl | rfl | hc
  · by_cases hb : b = 0x55#8
    · rw [hb]; rfl
    · rw [decodeCp_scanA_skip hb]; exact congrArg some (withByte_mkW .cp 0 b)
  · by_cases hb : b = 0xFC#8
    · rw [hb]; rfl
    · by_cases hb' : b = 0x55#8
      · rw [hb']; rfl
      · rw [decodeCp_scanB_fail hb hb']; exact congrArg some (withByte_mkW .cp 1 b)
  · exact congrArg some (withByte_mkW .cp 2 b)
  · exact congrArg some (withByte_mkW .cp 3 b)
  · exact congrArg some (withByte_mkW .cp 4 b)
  · rw [decodeCp_bad hc]; exact congrArg some (withCode_mkW .cp st b)

theorem encodeW_decodeIb (st : BitVec 3) (b : Byte) : encodeW (decodeIb st b) = some (mkW .ib st b) := by
  rcases ib_code_cases st with rfl | rfl | rfl | rfl | rfl | rfl | hc
  · by_cases hb : b = 0x20#8
    · rw [hb]; rfl
    · rw [decodeIb_hdrA_skip hb]; exact congrArg some (withByte_mkW .ib 0 b)
  · by_cases hb : b = 0x40#8
    · rw [hb]; rfl
    · rw [decodeIb_hdrB_fail hb]; exact congrArg some (withByte_mkW .ib 1 b)
  · exact congrArg some (withByte_mkW .ib 2 b)
  · exact congrArg some (withByte_mkW .ib 3 b)
  · exact congrArg some (withByte_mkW .ib 4 b)
  · exact congrArg some (withByte_mkW .ib 5 b)
  · rw [decodeIb_bad hc]; exact congrArg some (withCode_mkW .ib st b)

/-- The fields that select a row make W up (R88). -/
theorem encodeW_decodeW (w : BitVec 12) : encodeW (decodeW w) = some w := by
  conv_rhs => rw [← mkW_fields w]
  rw [decodeW]
  cases wProto w with
  | cp => exact encodeW_decodeCp _ _
  | ib => exact encodeW_decodeIb _ _

/-- Settles O3: every row some word selects is well-formed, and its own word is that one. -/
theorem everyWordIsOneRulesWord : Obligations.EveryWordIsOneRulesWord :=
  fun w => ⟨wf_decodeW w, encodeW_decodeW w⟩

/-! The table (R89): its rows by how much of W they match. -/

/-- A row with one state code and one byte. -/
def byteRow (name : String) (p : Proto) (st : BitVec 3) (b : Byte) : MapRow := ⟨name, mkW p st b, 0xFFF⟩

/-- A row with one state code and any byte. -/
def codeRow (name : String) (p : Proto) (st : BitVec 3) : MapRow := ⟨name, mkW p st 0, 0xF00⟩

/-- A row with any state code and any byte. -/
def protoRow (name : String) (p : Proto) : MapRow := ⟨name, mkW p 0 0, 0x800⟩

/-- Does the row match W? -/
def MapRow.matches (r : MapRow) (w : BitVec 12) : Bool := w &&& r.mask = r.pattern

theorem cpRows_eq : cpRows =
    [byteRow "CP_SCAN_A_SYNC" .cp 0 0x55, codeRow "CP_SCAN_A_SKIP" .cp 0,
     byteRow "CP_SCAN_B_OK" .cp 1 0xFC, byteRow "CP_SCAN_B_RESYNC" .cp 1 0x55, codeRow "CP_SCAN_B_FAIL" .cp 1,
     codeRow "CP_PAYLOAD_BYTE" .cp 2, codeRow "CP_CSUM_HI" .cp 3, codeRow "CP_CSUM_LO" .cp 4,
     protoRow "CP_BAD_STATE" .cp] := rfl

theorem ibRows_eq : ibRows =
    [byteRow "IB_HDR_A_SYNC" .ib 0 0x20, codeRow "IB_HDR_A_SKIP" .ib 0,
     byteRow "IB_HDR_B_OK" .ib 1 0x40, codeRow "IB_HDR_B_FAIL" .ib 1,
     codeRow "IB_INT_LO" .ib 2, codeRow "IB_INT_HI" .ib 3, codeRow "IB_CHECK_A" .ib 4, codeRow "IB_CHECK_B" .ib 5,
     protoRow "IB_BAD_STATE" .ib] := rfl

section Rows
variable (name : String) (p p' : Proto) (st st' : BitVec 3) (b b' : Byte)

@[simp] theorem byteRow_mnemonic : (byteRow name p st b).mnemonic = name := rfl
@[simp] theorem codeRow_mnemonic : (codeRow name p st).mnemonic = name := rfl
@[simp] theorem protoRow_mnemonic : (protoRow name p).mnemonic = name := rfl

/-- The mask of ST and PROTO clears the byte. -/
theorem mkW_and_code : mkW p st b &&& 0xF00#12 = mkW p st 0 := by
  apply BitVec.eq_of_getLsbD_eq
  intro i hi
  have hmask : (0xF00#12).getLsbD i = decide (8 ≤ i) := by revert i; decide
  rw [BitVec.getLsbD_and, hmask, mkW_getLsbD, mkW_getLsbD]
  by_cases h8 : i < 8
  · simp [h8]
  · simp [h8, Nat.le_of_not_lt h8]

/-- The mask of PROTO clears the code too. -/
theorem mkW_and_proto : mkW p st b &&& 0x800#12 = mkW p 0 0 := by
  have hcode : mkW p st 0 &&& 0x800#12 = mkW p 0 0 := by cases p <;> (revert st; decide)
  rw [← hcode, ← mkW_and_code p st b, BitVec.and_assoc]
  rfl

@[simp] theorem byteRow_matches :
    (byteRow name p' st' b').matches (mkW p st b) = decide (p = p' ∧ st = st' ∧ b = b') := by
  have hmask : mkW p st b &&& 0xFFF = mkW p st b := BitVec.and_allOnes
  simp only [MapRow.matches, byteRow, hmask, mkW_inj]

@[simp] theorem codeRow_matches : (codeRow name p' st').matches (mkW p st b) = decide (p = p' ∧ st = st') := by
  have hmask : mkW p st b &&& 0xF00 = mkW p st 0 := mkW_and_code p st b
  simp only [MapRow.matches, codeRow, hmask, mkW_inj, and_true]

@[simp] theorem protoRow_matches : (protoRow name p').matches (mkW p st b) = decide (p = p') := by
  have hmask : mkW p st b &&& 0x800 = mkW p 0 0 := mkW_and_proto p st b
  simp only [MapRow.matches, protoRow, hmask, mkW_inj, and_true]

end Rows

/-- The name of the first of some rows that matches W. -/
def firstName (rows : List MapRow) (w : BitVec 12) : Option String := (rows.find? (·.matches w)).map MapRow.mnemonic

@[simp] theorem firstName_nil (w : BitVec 12) : firstName [] w = none := rfl

@[simp] theorem firstName_cons (r : MapRow) (rows : List MapRow) (w : BitVec 12) :
    firstName (r :: rows) w = if r.matches w then some r.mnemonic else firstName rows w := by
  rw [firstName, List.find?_cons]
  cases r.matches w <;> rfl

theorem firstRow_mnemonic (w : BitVec 12) :
    (firstRow w).map MapRow.mnemonic = (firstName cpRows w).or (firstName ibRows w) := by
  rw [firstName, firstName, ← Option.map_or, ← List.find?_append]
  rfl

/-- Among the rows of PROTO = 0 the first that matches is the decoder's. -/
theorem firstName_cpRows (st : BitVec 3) (b : Byte) :
    firstName cpRows (mkW .cp st b) = some (decodeCp st b).mnemonic := by
  rw [cpRows_eq]
  rcases cp_code_cases st with rfl | rfl | rfl | rfl | rfl | hc
  · by_cases hb : b = 0x55#8
    · simp [hb, Instr.mnemonic]
    · simp [hb, decodeCp_scanA_skip hb, Instr.mnemonic]
  · by_cases hb : b = 0xFC#8
    · simp [hb, Instr.mnemonic]
    · by_cases hb' : b = 0x55#8
      · simp [hb', Instr.mnemonic]
      · simp [hb, hb', decodeCp_scanB_fail hb hb', Instr.mnemonic]
  · simp [Instr.mnemonic]
  · simp [Instr.mnemonic]
  · simp [Instr.mnemonic]
  · simp [ne_of_cp_unused hc, decodeCp_bad hc, Instr.mnemonic]

/-- Among the rows of PROTO = 1 the first that matches is the decoder's. -/
theorem firstName_ibRows (st : BitVec 3) (b : Byte) :
    firstName ibRows (mkW .ib st b) = some (decodeIb st b).mnemonic := by
  rw [ibRows_eq]
  rcases ib_code_cases st with rfl | rfl | rfl | rfl | rfl | rfl | hc
  · by_cases hb : b = 0x20#8
    · simp [hb, Instr.mnemonic]
    · simp [hb, decodeIb_hdrA_skip hb, Instr.mnemonic]
  · by_cases hb : b = 0x40#8
    · simp [hb, Instr.mnemonic]
    · simp [hb, decodeIb_hdrB_fail hb, Instr.mnemonic]
  · simp [Instr.mnemonic]
  · simp [Instr.mnemonic]
  · simp [Instr.mnemonic]
  · simp [Instr.mnemonic]
  · simp [ne_of_ib_unused hc, decodeIb_bad hc, Instr.mnemonic]

/-- No row of PROTO = 0 matches a word of PROTO = 1. -/
theorem firstName_cpRows_ib (st : BitVec 3) (b : Byte) : firstName cpRows (mkW .ib st b) = none := by
  simp [cpRows_eq]

/-- The first row that matches W is the decoder's row (R89). -/
theorem firstRow_mnemonic_decodeW (w : BitVec 12) : (firstRow w).map MapRow.mnemonic = some (decodeW w).mnemonic := by
  rw [← mkW_fields w, firstRow_mnemonic]
  cases wProto w with
  | cp => rw [firstName_cpRows, decodeW_mkW_cp, Option.some_or]
  | ib => rw [firstName_cpRows_ib, firstName_ibRows, decodeW_mkW_ib, Option.none_or]

/-- A parser rule is no mapper row. -/
theorem isMapper_of_parserOf {i : Instr} {p : Proto} (h : parserOf i = some p) : i.isMapper = false := by
  cases i with
  | mapCp => cases h
  | mapIb => cases h
  | _ => rfl

theorem eq_cpBadState_of_mnemonic {i : Instr} (h : i.mnemonic = "CP_BAD_STATE") : ∃ st b, i = .cpBadState st b := by
  cases i with
  | cpBadState st b => exact ⟨st, b, rfl⟩
  | _ => simp [Instr.mnemonic] at h

theorem eq_ibBadState_of_mnemonic {i : Instr} (h : i.mnemonic = "IB_BAD_STATE") : ∃ st b, i = .ibBadState st b := by
  cases i with
  | ibBadState st b => exact ⟨st, b, rfl⟩
  | _ => simp [Instr.mnemonic] at h

/-- CP_BAD_STATE is selected from the unused codes alone: the row is well-formed and W has its code (R89, R121). -/
theorem wSt_of_cpBadState {w : BitVec 12} (h : (decodeW w).mnemonic = "CP_BAD_STATE") : 5 ≤ (wSt w).toNat := by
  obtain ⟨st, b, hi⟩ := eq_cpBadState_of_mnemonic h
  have hw : withCode (mkW .cp 0 0) st b = w :=
    Option.some.inj ((congrArg encodeW hi).symm.trans (encodeW_decodeW w))
  rw [← hw, withCode_mkW, wSt_mkW]
  exact wf_cpBadState (hi ▸ wf_decodeW w)

/-- IB_BAD_STATE is selected from the unused codes alone (R89, R149). -/
theorem wSt_of_ibBadState {w : BitVec 12} (h : (decodeW w).mnemonic = "IB_BAD_STATE") : 6 ≤ (wSt w).toNat := by
  obtain ⟨st, b, hi⟩ := eq_ibBadState_of_mnemonic h
  have hw : withCode (mkW .ib 0 0) st b = w :=
    Option.some.inj ((congrArg encodeW hi).symm.trans (encodeW_decodeW w))
  rw [← hw, withCode_mkW, wSt_mkW]
  exact wf_ibBadState (hi ▸ wf_decodeW w)

/-- The decode word of a state selects a rule of the parser of its PROTO field (R89). -/
theorem parserOf_decodeW (w : BitVec 12) : parserOf (decodeW w) = some (wProto w) := by
  unfold decodeW
  cases wProto w with
  | cp => exact parserOf_decodeCp _ _
  | ib => exact parserOf_decodeIb _ _

/-- Settles O4: the table's first matching row is the decoder's, and an accepting step runs the row of its own word. -/
theorem firstMatchingRowApplies : Obligations.FirstMatchingRowApplies :=
  ⟨fun w => ⟨firstRow_mnemonic_decodeW w, isMapper_of_parserOf (parserOf_decodeW w), wSt_of_cpBadState,
    wSt_of_ibBadState⟩, fun s ⟨_, _, r, v, _⟩ => clockEdge_accept s.afterEdge r v, rfl, rfl⟩

/-! Words written out, and bytes that are no word. -/

/-- Settles O1: the decoder evaluated on each word. -/
theorem writtenWordsDecode : Obligations.WrittenWordsDecode := by
  unfold Obligations.WrittenWordsDecode
  decide

/-- Settles O5: the first two by the decoder's shape, the third by the upper half of the second byte. -/
theorem malformedBytesAreRefusedByName : Obligations.MalformedBytesAreRefusedByName := by
  refine ⟨rfl, fun _ _ _ _ => rfl, fun lo hi h => if_neg fun htop => ?_⟩
  have htop : hi.toNat / 16 % 16 = 0 := by
    simpa [BitVec.extractLsb'_toNat, Nat.shiftRight_eq_div_pow] using congrArg BitVec.toNat htop
  have := hi.isLt
  omega

end Sys2Proof
end

section
/-! PROOFS. Single rules: the state codes they leave, the unused codes, the low and high byte of an IBUS channel, the
placed words, and the checksums of bytes in another order. -/

namespace Sys2Proof.Safety

open Sys2Proof.Machine

/-! The state codes a step leaves (R90). -/

theorem CpEffect.code_le {s t : State} {b : Byte} (h : CpEffect s b t) : t.cst.toNat ≤ 4 := by
  cases h with
  | scanASkip c v => simp [c]
  | payload c => dsimp only; split <;> simp
  | _ => simp

theorem IbEffect.code_le {s t : State} {b : Byte} (h : IbEffect s b t) : t.ist.toNat ≤ 5 := by
  cases h with
  | hdrASkip c v => simp [c]
  | intHi c => dsimp only; split <;> simp
  | _ => simp

/-- Settles O45: a reset leaves the initial codes, and each parser's rules a used one of its own. -/
theorem stepsWriteOnlyUsedCodes : Obligations.StepsWriteOnlyUsedCodes := by
  intro s t h hrv
  cases step_effect h with
  | reset r h => subst h; simp
  | idle r v h => simp [r, v] at hrv
  | cp r v p h => exact ⟨fun _ => h.code_le, fun p' => nomatch (h.frame.1.trans p).symm.trans p'⟩
  | ib r v p h => exact ⟨fun p' => (nomatch (h.frame.1.trans p).symm.trans p'), fun _ => h.code_le⟩

/-! The unused codes (R90). -/

/-- A CP rule of an unused code does what the rule of CP_SCAN_A for the same byte does (R121). -/
theorem CpEffect.initial_of_unused {s t : State} {b : Byte} (h : CpEffect s b t) (hst : 5 ≤ s.cst.toNat) :
    CpEffect { s with cst := 0 } b t := by
  cases h with
  | badSync c v => exact .scanASync rfl v
  | badSkip c v => exact .scanASkip rfl v
  | _ c => simp [c] at hst

/-- An IB rule of an unused code does what the rule of HDR_A for the same byte does (R149). -/
theorem IbEffect.initial_of_unused {s t : State} {b : Byte} (h : IbEffect s b t) (hst : 6 ≤ s.ist.toNat) :
    IbEffect { s with ist := 0 } b t := by
  cases h with
  | badSync c v => exact .hdrASync rfl v
  | badSkip c v => exact .hdrASkip rfl v
  | _ c => simp [c] at hst

/-- Settles O22: what the step does from the unused code it does from the initial one. -/
theorem unusedCodesActAsInitial : Obligations.UnusedCodesActAsInitial := by
  refine ⟨fun s st b hst ⟨p, c, r, v, _⟩ => ?_, fun s st b hst ⟨p, c, r, v, _⟩ => ?_⟩
  · rw [← c, State.activeCode_cp p] at hst
    obtain ⟨t, ht⟩ := exec_answers (decodeCp s.cst s.nextEdge.inData) s.afterEdge
    have h : CpEffect s.afterEdge s.nextEdge.inData t := exec_decodeCp_effect ht
    rw [step_cp r v p, ht]
    exact ((step_cp (s := { s with cst := 0 }) r v p).trans (h.initial_of_unused hst).exec_eq).symm
  · rw [← c, State.activeCode_ib p] at hst
    obtain ⟨t, ht⟩ := exec_answers (decodeIb s.ist s.nextEdge.inData) s.afterEdge
    have h : IbEffect s.afterEdge s.nextEdge.inData t := exec_decodeIb_effect ht
    rw [step_ib r v p, ht]
    exact ((step_ib (s := { s with ist := 0 }) r v p).trans (h.initial_of_unused hst).exec_eq).symm

/-! One channel of an IBUS frame (R85, R145, R146). -/

/-- The state after a channel's low byte. -/
def afterLow (s : State) (lo : Byte) : State :=
  { quiet s with ich := ichWrite s.ich s.iidx (zext16 lo), iacc := s.iacc - zext16 lo, ist := 3 }

/-- The state after both bytes of a channel, the slot being one that ICH has. -/
def afterChannel (s : State) (h : s.iidx.toNat < 14) (lo hi : Byte) : State :=
  { quiet s with
    ich := s.ich.set s.iidx.toNat (cat hi lo) h
    iacc := s.iacc - zext16 lo - zext16 hi
    iidx := s.iidx + 1
    ist := if s.iidx.toNat = 13 then 4 else 2 }

theorem exec_ibIntLo (s : State) (lo : Byte) : exec (.ibIntLo lo) s = .next (afterLow s lo) := rfl

/-- The high byte is ORed into the low byte that the slot holds. -/
theorem exec_ibIntHi_afterLow (s : State) (h : s.iidx.toNat < 14) (lo hi : Byte) :
    exec (.ibIntHi hi) (afterLow s lo) = .next (afterChannel s h lo hi) := by
  have hslot : ichWrite (afterLow s lo).ich s.iidx (orHigh (ichRead (afterLow s lo).ich s.iidx) hi) =
      s.ich.set s.iidx.toNat (cat hi lo) h := by
    simp [afterLow, ichWrite_of_lt, ichRead_of_lt, h, orHigh_zext16]
  have hexec := IbEffect.exec_eq (.intHi (s := afterLow s lo) (b := hi) rfl)
  exact hexec.trans (by rw [afterChannel, ← hslot]; rfl)

/-- Settles O29: the slot is written in two steps, the other slots in none. -/
theorem ibBytePairFillsItsSlot : Obligations.IbBytePairFillsItsSlot := by
  refine fun s lo hi h => ⟨_, _, exec_ibIntLo s lo, exec_ibIntHi_afterLow s h lo hi, fun k => ?_, rfl,
    toNat_succ_of_lt h⟩
  show ((s.ich.set s.iidx.toNat (cat hi lo) h)[k.val]).toNat = _
  split
  · next hk => simp only [hk, Vector.getElem_set_self, cat_toNat]
  · next hk => rw [Vector.getElem_set_ne _ _ (Ne.symm hk)]; rfl

/-! An accepted byte that is listed next: the step is the case of the effect that its state code and byte select. -/

theorem step_of_cpEffect {s t : State} {b : Byte} {es : List Edge} (p : s.proto = .cp)
    (hin : s.inputs = acceptEdge b :: es) (h : CpEffect s.afterEdge b t) : step s = .next t := by
  have he : s.nextEdge = acceptEdge b := State.nextEdge_of_inputs hin
  rw [step_cp (by rw [he]; rfl) (by rw [he]; rfl) p, he]
  exact h.exec_eq

theorem step_of_ibEffect {s t : State} {b : Byte} {es : List Edge} (p : s.proto = .ib)
    (hin : s.inputs = acceptEdge b :: es) (h : IbEffect s.afterEdge b t) : step s = .next t := by
  have he : s.nextEdge = acceptEdge b := State.nextEdge_of_inputs hin
  rw [step_ib (by rw [he]; rfl) (by rw [he]; rfl) p, he]
  exact h.exec_eq

/-! Placed words (log entry 6). -/

theorem withFetchWord_word (s : State) (w : BitVec 12) : s.withFetchWord 16 w.toNat = s.placeW w := by
  simp [State.withFetchWord, State.placeTableWord]

theorem withFetchWord_selector (s : State) (p : Proto) : s.withFetchWord 8 p.bit.toNat = s.placeMapper p := by
  simp [State.withFetchWord, State.placeTableWord]

/-- The next edge after placing W accepts W's byte. -/
theorem nextEdge_placeW (s : State) (w : BitVec 12) : (s.placeW w).nextEdge = acceptEdge (wByte w) := by
  unfold State.placeW
  cases wProto w <;> rfl

/-- The decode word of that byte is W. -/
theorem decodeWord_placeW (s : State) (w : BitVec 12) : (s.placeW w).decodeWord (wByte w) = w := by
  conv_rhs => rw [← mkW_fields w]
  unfold State.placeW
  cases wProto w <;> rfl

theorem step_placeW (s : State) (w : BitVec 12) : step (s.placeW w) = exec (decodeW w) (s.placeW w).afterEdge := by
  have he := nextEdge_placeW s w
  have hstep := clockEdge_accept (s.placeW w).afterEdge (e := acceptEdge (wByte w)) rfl rfl
  rw [step, he, hstep, accept, State.decodeWord_afterEdge]
  exact congrArg (fun w' => exec (decodeW w') _) (decodeWord_placeW s w)

/-- Settles O7: a placed word is the decode word of its own edge, and the placed last byte of a frame validates. -/
theorem placedWordsRunNext : Obligations.PlacedWordsRunNext := by
  refine ⟨fun s w => ?_, fun s p => ?_⟩
  · rw [withFetchWord_word, step_placeW]
  · rw [withFetchWord_selector]
    cases p with
    | cp =>
      have hvalid : s.csum = cat (hiByte s.csum) (loByte s.csum) := (cat_hiByte_loByte s.csum).symm
      exact ⟨_, step_of_cpEffect rfl rfl (.emit rfl hvalid), rfl, rfl, rfl, rfl⟩
    | ib =>
      have hvalid : orHigh (zext16 (loByte s.iacc)) (hiByte s.iacc) = s.iacc := by
        rw [orHigh_zext16, cat_hiByte_loByte]
      exact ⟨_, step_of_ibEffect rfl rfl (.emit rfl hvalid), rfl, rfl, rfl, rfl⟩

/-! The order of bytes (R217). -/

theorem byteSum_perm {l r : List Byte} (h : l.Perm r) : byteSum l = byteSum r :=
  h.foldl_eq' (fun _ _ _ _ z => add_right_comm z (zext16 _) (zext16 _)) 0

theorem ibSum_perm {l r : List Byte} (h : l.Perm r) : ibSum l = ibSum r :=
  h.foldl_eq' (fun _ _ _ _ z => sub_right_comm z (zext16 _) (zext16 _)) Params.ibCsumInit

/-- Settles O52: addition and subtraction of bytes commute, and of at most 14 bytes the CP checksum is the sum of all. -/
theorem checksumsDoNotSeeTheOrder : Obligations.ChecksumsDoNotSeeTheOrder := by
  refine fun l r h => ⟨byteSum_perm h, ibSum_perm h, fun hl => ?_⟩
  have hr : r.length ≤ 14 := h.length_eq ▸ hl
  rw [cpSum_of_le hl, cpSum_of_le hr]
  exact ⟨rfl, byteSum_perm h⟩

end Sys2Proof.Safety
end

section
/-! PROOFS. Whole frames: a CP packet and an IBUS frame run through their headers, slot by slot through their payload, and
through their checksum. -/

namespace Sys2Proof.Safety

open Sys2Proof.Machine

/-- A run of m rounds of k steps each, from what holds before each round (the induction of a frame's payload). -/
theorem runSteps_rounds {P : Nat → State → Prop} {k m : Nat}
    (round : ∀ n < m, ∀ s, P n s → ∃ t, runSteps k s = .next t ∧ P (n + 1) t) {s : State} (h : P 0 s) :
    ∃ t, runSteps (m * k) s = .next t ∧ P m t := by
  induction m with
  | zero => exact ⟨s, by rw [Nat.zero_mul, runSteps_zero], h⟩
  | succ m ih =>
    obtain ⟨u, hu, hPu⟩ := ih fun n hn => round n (by omega)
    obtain ⟨t, ht, hPt⟩ := round m (by omega) u hPu
    exact ⟨t, by rw [Nat.succ_mul, runSteps_add _ _ hu, ht], hPt⟩

theorem runSteps_one {s t : State} (h : step s = .next t) : runSteps 1 s = .next t := by
  rw [runSteps_succ 0 h, runSteps_zero]

theorem runSteps_two {s t u : State} (h : step s = .next t) (h' : step t = .next u) : runSteps 2 s = .next u := by
  rw [runSteps_succ 1 h, runSteps_one h']

theorem feed_append (l r : List Byte) : feed (l ++ r) = feed l ++ feed r := List.map_append

/-- The slots up to n are those below n and slot n. -/
theorem take_succ_toList {α : Type} {m n : Nat} (v : Vector α m) (h : n < m) :
    v.toList.take (n + 1) = v.toList.take n ++ [v[n]] := by
  rw [List.take_succ_eq_append_getElem (by simpa using h), Vector.getElem_toList]

/-- The slots from n on are slot n and those above it. -/
theorem drop_toList {α : Type} {m n : Nat} (v : Vector α m) (h : n < m) :
    v.toList.drop n = v[n] :: v.toList.drop (n + 1) := by
  rw [List.drop_eq_getElem_cons (by simpa using h), Vector.getElem_toList]

section CustomProtocol

/-- After the header and n payload bytes of p, with the other bytes of p and then es next on the ports (R92, R116); FR and
REPORT are still those of s₀. -/
structure CpFilled (p : Payload) (es : List Edge) (s₀ : State) (n : Nat) (s : State) : Prop where
  proto : s.proto = .cp
  code : s.cst = if n = 14 then 3 else 2
  count : s.ccnt.toNat = n
  filled : s.cbuf.toList.take n = p.toList.take n
  summed : s.csum = cpSum (p.toList.take n)
  fr : s.fr = s₀.fr
  report : s.report = s₀.report
  inputs : s.inputs = feed (p.toList.drop n) ++ es

variable {p : Payload} {es : List Edge} {s₀ s : State}

/-- The two header bytes (R111, R113). -/
theorem cpHeader_run (hp : s.proto = .cp) (hc : s.cst = 0) (hin : s.inputs = feed cpHeader ++ (feed p.toList ++ es)) :
    ∃ t, runSteps 2 s = .next t ∧ CpFilled p es s 0 t := by
  have hA := step_of_cpEffect hp hin (.scanASync hc rfl)
  have hB := step_of_cpEffect (s := { quiet s.afterEdge with cst := 1 }) (b := 0xFC) hp (congrArg List.tail hin)
    (.scanBOk rfl rfl)
  exact ⟨_, runSteps_two hA hB, hp, rfl, rfl, rfl, rfl, rfl, rfl, congrArg (·.tail.tail) hin⟩

/-- One payload byte (R116). -/
theorem CpFilled.step {n : Nat} (hn : n < 14) (h : CpFilled p es s₀ n s) :
    ∃ t, runSteps 1 s = .next t ∧ CpFilled p es s₀ (n + 1) t := by
  have hc : s.cst = 2 := by rw [h.code, if_neg (by omega)]
  have hlt : s.ccnt.toNat < 14 := h.count ▸ hn
  have hin : s.inputs = acceptEdge p[n] :: (feed (p.toList.drop (n + 1)) ++ es) := by
    rw [h.inputs, drop_toList p hn]; rfl
  refine ⟨_, runSteps_one (step_of_cpEffect h.proto hin (.payload hc)), h.proto, ?_, ?_, ?_, ?_, h.fr, h.report,
    congrArg List.tail hin⟩
  · show (if s.ccnt.toNat = 13 then 3 else 2) = if n + 1 = 14 then 3 else 2
    simp only [h.count, Nat.reduceEqDiff]
  · exact (toNat_succ_of_lt hlt).trans (by rw [h.count])
  · show (cbufWrite s.cbuf s.ccnt p[n]).toList.take (n + 1) = _
    simp only [cbufWrite_of_lt _ _ _ hlt, h.count]
    rw [take_succ_set, h.filled, take_succ_toList p hn]
  · show cpSumStep s.csum s.ccnt p[n] = _
    rw [h.summed, take_succ_toList p hn, cpSum_concat _ _ s.ccnt (by simp [h.count]; omega)]

/-- All 14 payload bytes. -/
theorem CpFilled.run (h : CpFilled p es s₀ 0 s) : ∃ t, runSteps 14 s = .next t ∧ CpFilled p es s₀ 14 t :=
  runSteps_rounds (k := 1) (m := 14) (fun _ hn _ => CpFilled.step hn) h

/-- After the payload CBUF is the payload and CSUM its checksum (R83). -/
theorem CpFilled.full (h : CpFilled p es s₀ 14 s) : s.cbuf = p ∧ s.csum = cpSum p.toList := by
  refine ⟨eq_of_take_eq h.filled, ?_⟩
  rw [h.summed, List.take_of_length_le (by simp)]

/-- The two trailer bytes (R117, R118): the packet is emitted exactly when they are its checksum. -/
theorem CpFilled.trailer {w : Word} {rest : List Edge} (h : CpFilled p (feed [hiByte w, loByte w] ++ rest) s₀ 14 s) :
    ∃ t, runSteps 2 s = .next t ∧ t.proto = .cp ∧ t.cst = 0 ∧ t.inputs = rest ∧
      (w = cpSum p.toList → t.outValid = true ∧ t.evCsumErr = false ∧ t.fr = cpDecode p ∧
        t.report = mapReport .cp (cpDecode p) ∧ (t.evTestMismatch = true ↔ cpWord p 6 ≠ cpWord p 2)) ∧
      (w ≠ cpSum p.toList → t.outValid = false ∧ t.evCsumErr = true ∧ t.evTestMismatch = false ∧
        t.fr = s₀.fr ∧ t.report = s₀.report) := by
  obtain ⟨hbuf, hsum⟩ := h.full
  have hin : s.inputs = feed [hiByte w, loByte w] ++ rest := by
    rw [h.inputs, List.drop_of_length_le (by simp)]; rfl
  have hHi := step_of_cpEffect h.proto hin (.csumHi h.code)
  have hLo {t} := step_of_cpEffect (s := { quiet s.afterEdge with ctrh := hiByte w, cst := 4 }) (b := loByte w) (t := t)
    h.proto (congrArg List.tail hin)
  by_cases hw : w = cpSum p.toList
  · have hvalid : s.csum = cat (hiByte w) (loByte w) := by rw [cat_hiByte_loByte, hsum, hw]
    refine ⟨_, runSteps_two hHi (hLo (.emit rfl hvalid)), h.proto, rfl, congrArg (·.tail.tail) hin,
      fun _ => ⟨rfl, rfl, congrArg cpDecode hbuf, ?_, ?_⟩, fun hn => absurd hw hn⟩
    · show mapReport s.proto (cpDecode s.cbuf) = _
      rw [h.proto, hbuf]
    · show cpTestMismatch s.cbuf = true ↔ _
      rw [hbuf, cpTestMismatch_iff]
  · have hinvalid : s.csum ≠ cat (hiByte w) (loByte w) := by rwa [cat_hiByte_loByte, hsum, ne_comm]
    exact ⟨_, runSteps_two hHi (hLo (.drop rfl hinvalid)), h.proto, rfl, congrArg (·.tail.tail) hin,
      fun h => absurd h hw, fun _ => ⟨rfl, rfl, rfl, h.fr, h.report⟩⟩

end CustomProtocol

/-- Settles O49: the header, the payload and the trailer, one run after the other. -/
theorem cpPacketEmitsExactlyWhenValid : Obligations.CpPacketEmitsExactlyWhenValid := by
  intro s p w rest hp hc hin
  rw [cpPacket, feed_append, feed_append, List.append_assoc, List.append_assoc] at hin
  obtain ⟨u, hu, hheader⟩ := cpHeader_run hp hc hin
  obtain ⟨v, hv, hpayload⟩ := hheader.run
  obtain ⟨t, ht, hend⟩ := hpayload.trailer
  exact ⟨t, by rw [runSteps_add 2 16 hu, runSteps_add 14 2 hv, ht], hend⟩

section Ibus

/-- After the header and n channels of ch, with the other channels' bytes and then es next on the ports (R92, R145, R146);
FR and REPORT are still those of s₀. -/
structure IbFilled (ch : Channels) (es : List Edge) (s₀ : State) (n : Nat) (s : State) : Prop where
  proto : s.proto = .ib
  code : s.ist = if n = 14 then 4 else 2
  count : s.iidx.toNat = n
  filled : s.ich.toList.take n = ch.toList.take n
  summed : s.iacc = ibSum (ibHeader ++ littleEndian (ch.toList.take n))
  fr : s.fr = s₀.fr
  report : s.report = s₀.report
  inputs : s.inputs = feed (littleEndian (ch.toList.drop n)) ++ es

variable {ch : Channels} {es : List Edge} {s₀ s : State}

/-- The two header bytes (R141, R143). -/
theorem ibHeader_run (hp : s.proto = .ib) (hc : s.ist = 0)
    (hin : s.inputs = feed ibHeader ++ (feed (littleEndian ch.toList) ++ es)) :
    ∃ t, runSteps 2 s = .next t ∧ IbFilled ch es s 0 t := by
  have hA := step_of_ibEffect hp hin (.hdrASync hc rfl)
  have hB := step_of_ibEffect (s := { quiet s.afterEdge with iacc := 0xFFDF, ist := 1 }) (b := 0x40) hp
    (congrArg List.tail hin) (.hdrBOk rfl rfl)
  exact ⟨_, runSteps_two hA hB, hp, rfl, rfl, rfl, rfl, rfl, rfl, congrArg (·.tail.tail) hin⟩

/-- The two bytes of a channel leave the state of `afterChannel`. -/
theorem channel_run {lo hi : Byte} (hp : s.proto = .ib) (hc : s.ist = 2) (hlt : s.iidx.toNat < 14)
    (hin : s.inputs = feed [lo, hi] ++ es) : runSteps 2 s = .next (afterChannel s.afterEdge.afterEdge hlt lo hi) := by
  have hLo : step s = .next (afterLow s.afterEdge lo) := step_of_ibEffect hp hin (.intLo hc)
  have he : (afterLow s.afterEdge lo).nextEdge = acceptEdge hi := State.nextEdge_of_inputs (congrArg List.tail hin)
  have hHi : step (afterLow s.afterEdge lo) = exec (.ibIntHi hi) (afterLow s.afterEdge.afterEdge lo) := by
    rw [step_ib (s := afterLow s.afterEdge lo) (by rw [he]; rfl) (by rw [he]; rfl) hp, he]
    rfl
  exact runSteps_two hLo (hHi.trans (exec_ibIntHi_afterLow s.afterEdge.afterEdge hlt lo hi))

/-- One channel (R145, R146). -/
theorem IbFilled.step {n : Nat} (hn : n < 14) (h : IbFilled ch es s₀ n s) :
    ∃ t, runSteps 2 s = .next t ∧ IbFilled ch es s₀ (n + 1) t := by
  have hc : s.ist = 2 := by rw [h.code, if_neg (by omega)]
  have hlt : s.iidx.toNat < 14 := h.count ▸ hn
  have hin : s.inputs = feed [loByte ch[n], hiByte ch[n]] ++ (feed (littleEndian (ch.toList.drop (n + 1))) ++ es) := by
    rw [h.inputs, drop_toList ch hn]; rfl
  refine ⟨_, channel_run h.proto hc hlt hin, h.proto, ?_, ?_, ?_, ?_, h.fr, h.report, congrArg (·.tail.tail) hin⟩
  · show (if s.iidx.toNat = 13 then 4 else 2) = if n + 1 = 14 then 4 else 2
    simp only [h.count, Nat.reduceEqDiff]
  · exact (toNat_succ_of_lt hlt).trans (by rw [h.count])
  · show (s.ich.set s.iidx.toNat (cat (hiByte ch[n]) (loByte ch[n])) hlt).toList.take (n + 1) = _
    simp only [cat_hiByte_loByte, h.count]
    rw [take_succ_set, h.filled, take_succ_toList ch hn]
  · show s.iacc - zext16 (loByte ch[n]) - zext16 (hiByte ch[n]) = _
    rw [take_succ_toList ch hn, littleEndian_concat, ← List.append_assoc, ibSum_pair, ibSum_concat, h.summed]

/-- All 14 channels. -/
theorem IbFilled.run (h : IbFilled ch es s₀ 0 s) : ∃ t, runSteps 28 s = .next t ∧ IbFilled ch es s₀ 14 t :=
  runSteps_rounds (k := 2) (m := 14) (fun _ hn _ => IbFilled.step hn) h

/-- After the channels ICH is ch, and IACC the checksum of the 30 bytes so far (R86). -/
theorem IbFilled.full (h : IbFilled ch es s₀ 14 s) : s.ich = ch ∧ s.iacc = ibSum (ibBody ch) := by
  refine ⟨eq_of_take_eq h.filled, ?_⟩
  rw [h.summed, List.take_of_length_le (by simp)]
  rfl

/-- The two checksum bytes (R147, R148): the frame is emitted exactly when they are the checksum. -/
theorem IbFilled.trailer {w : Word} {rest : List Edge} (h : IbFilled ch (feed [loByte w, hiByte w] ++ rest) s₀ 14 s) :
    ∃ t, runSteps 2 s = .next t ∧ t.proto = .ib ∧ t.ist = 0 ∧ t.iacc = 0xFFFF ∧ t.iidx = 14 ∧
      t.inputs = rest ∧ t.evTestMismatch = false ∧
      (w = ibSum (ibBody ch) → t.outValid = true ∧ t.evCsumErr = false ∧ t.fr = ch ∧ t.report = mapReport .ib ch) ∧
      (w ≠ ibSum (ibBody ch) → t.outValid = false ∧ t.evCsumErr = true ∧ t.fr = s₀.fr ∧ t.report = s₀.report) := by
  obtain ⟨hich, hacc⟩ := h.full
  have hidx : s.iidx = 14 := BitVec.eq_of_toNat_eq h.count
  have hin : s.inputs = feed [loByte w, hiByte w] ++ rest := by
    rw [h.inputs, List.drop_of_length_le (by simp)]; rfl
  have hA := step_of_ibEffect h.proto hin (.checkA h.code)
  have hB {t} := step_of_ibEffect (s := { quiet s.afterEdge with iwcs := zext16 (loByte w), ist := 5 }) (b := hiByte w)
    (t := t) h.proto (congrArg List.tail hin)
  by_cases hw : w = ibSum (ibBody ch)
  · have hvalid : orHigh (zext16 (loByte w)) (hiByte w) = s.iacc := by rw [orHigh_zext16, cat_hiByte_loByte, hacc, hw]
    refine ⟨_, runSteps_two hA (hB (.emit rfl hvalid)), h.proto, rfl, rfl, hidx, congrArg (·.tail.tail) hin, rfl,
      fun _ => ⟨rfl, rfl, hich, ?_⟩, fun hn => absurd hw hn⟩
    show mapReport s.proto s.ich = _
    rw [h.proto, hich]
  · have hinvalid : orHigh (zext16 (loByte w)) (hiByte w) ≠ s.iacc := by rwa [orHigh_zext16, cat_hiByte_loByte, hacc]
    exact ⟨_, runSteps_two hA (hB (.drop rfl hinvalid)), h.proto, rfl, rfl, hidx, congrArg (·.tail.tail) hin, rfl,
      fun h => absurd h hw, fun _ => ⟨rfl, rfl, h.fr, h.report⟩⟩

end Ibus

/-- Settles O50: the header, the channels and the checksum, one run after the other. -/
theorem ibFrameEmitsExactlyWhenValid : Obligations.IbFrameEmitsExactlyWhenValid := by
  intro s c w rest hp hc hin
  rw [ibfWith, ibBody, feed_append, feed_append, List.append_assoc, List.append_assoc] at hin
  obtain ⟨u, hu, hheader⟩ := ibHeader_run hp hc hin
  obtain ⟨v, hv, hchannels⟩ := hheader.run
  obtain ⟨t, ht, hend⟩ := hchannels.trailer
  exact ⟨t, by rw [runSteps_add 2 30 hu, runSteps_add 28 2 hv, ht], hend⟩

end Sys2Proof.Safety
end

section
/-! PROOFS. The Custom-Protocol rules one by one, the two BAD_STATE rows and the missing slots: which rule an accepted
byte runs follows from the row it decodes to, and what a rule writes from its own equation. -/

namespace Sys2Proof.Safety

open Sys2Proof.Machine

/-! The rule an accepted byte runs (R60, R89). -/

theorem runs_of_decodeCp {s : State} {st : BitVec 3} {b : Byte} {i : Instr} (h : Accepts .cp st b s)
    (hi : decodeCp st b = i) : Runs s i := by
  obtain ⟨p, c, r, v, rfl⟩ := h
  rw [State.activeCode_cp p] at c
  subst c hi
  exact step_cp r v p

theorem runs_of_decodeIb {s : State} {st : BitVec 3} {b : Byte} {i : Instr} (h : Accepts .ib st b s)
    (hi : decodeIb st b = i) : Runs s i := by
  obtain ⟨p, c, r, v, rfl⟩ := h
  rw [State.activeCode_ib p] at c
  subst c hi
  exact step_ib r v p

/-! The rules whose effect has a condition, from any state (log entry 8). -/

/-- The payload rule; the 14th byte is the one stored at CCNT = 13 (R116). -/
theorem exec_cpPayloadByte (b : Byte) (s : State) : exec (.cpPayloadByte b) s = .next { quiet s with
    cbuf := cbufWrite s.cbuf s.ccnt b
    csum := cpSumStep s.csum s.ccnt b
    ccnt := s.ccnt + 1
    cst := if s.ccnt.toNat = 13 then 3 else s.cst } := by
  simp [exec, execCpPayloadByte, Params.cpCsumHi, quiet, State.clearPulses]

theorem exec_cpCsumLo_valid {b : Byte} {s : State} (h : s.csum = cat s.ctrh b) :
    exec (.cpCsumLo b) s = .next { quiet s with
      cst := 0
      fr := cpDecode s.cbuf
      report := mapReport s.proto (cpDecode s.cbuf)
      outValid := true
      evTestMismatch := cpTestMismatch s.cbuf } := by
  have hv : cpValid s.csum s.ctrh b = true := decide_eq_true h
  rw [exec, execCpCsumLo, if_pos hv]
  cases cpTestMismatch s.cbuf <;> rfl

theorem exec_cpCsumLo_invalid {b : Byte} {s : State} (h : s.csum ≠ cat s.ctrh b) :
    exec (.cpCsumLo b) s = .next { quiet s with cst := 0, evCsumErr := true } := by
  have hv : cpValid s.csum s.ctrh b = false := decide_eq_false h
  rw [exec, execCpCsumLo, hv]
  rfl

/-- The high-byte rule; the last slot is the one at IIDX = 13 (R146). -/
theorem exec_ibIntHi (b : Byte) (s : State) : exec (.ibIntHi b) s = .next { quiet s with
    ich := ichWrite s.ich s.iidx (orHigh (ichRead s.ich s.iidx) b)
    iacc := s.iacc - zext16 b
    iidx := s.iidx + 1
    ist := if s.iidx.toNat = 13 then 4 else 2 } := by
  simp [exec, execIbIntHi, Params.ibStCheckA, Params.ibStIntLo, ibSumStep, quiet, State.clearPulses]

/-! Big-endian words. -/

theorem eq_cat_iff_toNat {v : Word} {hi lo : Byte} : v = cat hi lo ↔ v.toNat = 256 * hi.toNat + lo.toNat := by
  rw [← BitVec.toNat_inj, cat_toNat]

/-- Words are equal exactly when both bytes are (R82). -/
theorem cat_inj {a b c d : Byte} : cat a b = cat c d ↔ a = c ∧ b = d := by
  refine ⟨fun h => ⟨?_, ?_⟩, fun ⟨ha, hb⟩ => by rw [ha, hb]⟩
  · rw [← hiByte_cat a b, h, hiByte_cat]
  · rw [← loByte_cat a b, h, loByte_cat]

/-- The test check compares the bytes of the raw words 6 and 2 (R120). -/
theorem cpTestMismatch_eq_bytes (p : Payload) :
    cpTestMismatch p = !(p[12] == p[4] && p[13] == p[5]) := by
  rw [Bool.eq_iff_iff, cpTestMismatch_iff]
  show cat p[12] p[13] ≠ cat p[4] p[5] ↔ _
  simp [cat_inj, imp_iff_not_or]

/-! CP_SCAN_A to CP_CSUM_LO. -/

/-- Settles O15: the two rows of CP_SCAN_A. -/
theorem cpScanARules : Obligations.CpScanARules := by
  refine ⟨fun s b h => ⟨fun hb => ?_, fun hb => ?_⟩, fun _ => rfl, fun _ _ => rfl⟩
  · subst hb
    exact runs_of_decodeCp h decodeCp_scanA_sync
  · exact runs_of_decodeCp h (decodeCp_scanA_skip hb)

/-- Settles O16: the three rows of CP_SCAN_B. -/
theorem cpScanBRules : Obligations.CpScanBRules := by
  refine ⟨fun s b h => ⟨fun hb => ?_, fun hb => ?_, fun hb hb' => ?_⟩, fun _ => rfl, fun _ => rfl, fun _ _ => rfl⟩
  · subst hb
    exact runs_of_decodeCp h decodeCp_scanB_ok
  · subst hb
    exact runs_of_decodeCp h decodeCp_scanB_resync
  · exact runs_of_decodeCp h (decodeCp_scanB_fail hb hb')

/-- Settles O17: below 14 the slot exists and its byte is one of those that are summed. -/
theorem cpPayloadByteRule : Obligations.CpPayloadByteRule := by
  refine ⟨fun s b h => runs_of_decodeCp h (decodeCp_payload b), fun b s h => ?_⟩
  have hsum : cpSumStep s.csum s.ccnt b = s.csum + b.setWidth 16 := if_pos h
  rw [exec_cpPayloadByte, cbufWrite_of_lt _ _ _ h, hsum]

/-- Settles O18: the one row of CP_CSUM_HI. -/
theorem cpCsumHiRule : Obligations.CpCsumHiRule :=
  ⟨fun _ b h => runs_of_decodeCp h (decodeCp_csumHi b), fun _ _ => rfl⟩

/-- Settles O19: the trailer, read as a big-endian word, is CSUM or it is not. -/
theorem cpCsumLoRule : Obligations.CpCsumLoRule := by
  refine ⟨fun s b h => runs_of_decodeCp h (decodeCp_csumLo b), fun b s h => ?_, fun b s h => ?_⟩
  · rw [exec_cpCsumLo_valid (eq_cat_iff_toNat.mpr h), cpTestMismatch_eq_bytes]
  · exact exec_cpCsumLo_invalid (mt eq_cat_iff_toNat.mp h)

/-! The BAD_STATE rows and the missing slots. -/

/-- Settles O21: an unused code selects the BAD_STATE row, whose effect depends on the byte alone. -/
theorem badStateRules : Obligations.BadStateRules := by
  refine ⟨fun s st b hst h => runs_of_decodeCp h (decodeCp_bad hst b),
    fun s st b hst h => runs_of_decodeIb h (decodeIb_bad hst b), fun _ _ _ => rfl, fun st b s => ?_⟩
  rw [exec, execIbBadState]
  split_ifs with hA hb hb
  · subst hb; rfl
  · exact absurd hA hb
  · exact absurd hb hA
  · rfl

/-- Settles O30: an index of 14 or more is past the last summed byte and past the last slot. -/
theorem missingSlotsLeaveTheRestDefined : Obligations.MissingSlotsLeaveTheRestDefined := by
  refine ⟨fun b s h => ⟨cbufWrite s.cbuf s.ccnt b, ?_⟩, fun b s _ => ⟨_, exec_ibIntLo s b⟩,
    fun b s h => ⟨ichWrite s.ich s.iidx (orHigh (ichRead s.ich s.iidx) b), ?_⟩⟩
  · have hsum : cpSumStep s.csum s.ccnt b = s.csum := if_neg (Nat.not_lt.mpr h)
    rw [exec_cpPayloadByte, hsum, if_neg (by omega)]
    rfl
  · rw [exec_ibIntHi, if_neg (by omega)]
    rfl

end Sys2Proof.Safety
end

section
/-! PROOFS. The frame that CP emits: its slots and its axes, from the words of the payload. -/

namespace Sys2Proof.Safety

open Sys2Proof.Machine

theorem cpWord_toNat (p : Payload) (k : Fin 7) : (cpWord p k).toNat =
    256 * (p[2 * k.val]'(by show _ < 14; omega)).toNat + (p[2 * k.val + 1]'(by show _ < 14; omega)).toNat :=
  cat_toNat _ _

/-- The offset is taken off modulo 2^16 (R119). -/
theorem cpChannel_toNat (p : Payload) (k : Fin 7) :
    (cpChannel p k).toNat = ((cpWord p k).toNat + 65536 - 1000) % 65536 := by
  simp only [cpChannel, Params.cpChannelOffset_eq, BitVec.toNat_sub, BitVec.toNat_ofNat]
  omega

/-- Settles O20: the three ranges of slots, each by the decoder's own lemma. -/
theorem cpDecodeSlots : Obligations.CpDecodeSlots := by
  refine fun p => ⟨fun k => ?_, ?_, fun k hk => cpDecode_zero p k hk⟩
  · have hslot := cpDecode_channel p ⟨k.val, by show _ < 14; omega⟩ k.isLt
    rw [hslot, cpChannel_toNat, cpWord_toNat]
  · have hslot : (cpDecode p)[6] = cpWord p Params.cpTestSlot := cpDecode_test p
    rw [hslot, Params.cpTestSlot, cpWord_toNat]
    rfl

/-! The axes. -/

theorem minU_toNat (a b : Word) : (minU a b).toNat = min a.toNat b.toNat := by
  unfold minU
  split <;> omega

/-- T_CP clamps to 1022 and centres at 511 (R171). -/
theorem tCp_toInt (v : Word) : (tCp v).toInt = min (v.toNat : Int) 1022 - 511 := by
  have hmin : (minU v 1022#16).toNat = min v.toNat 1022 := minU_toNat v _
  have hclamp : (minU v 1022#16).toInt = min (v.toNat : Int) 1022 := by
    rw [BitVec.toInt_eq_toNat_of_lt (by omega), hmin, Nat.cast_min]
    rfl
  have hcenter : (511#16).toInt = 511 := rfl
  rw [tCp, Params.cpChannelMaximum_eq, Params.cpCenter_eq, BitVec.toInt_sub, hclamp, hcenter]
  exact Int.bmod_eq_of_le (by omega) (by omega)

/-- An axis takes the channel word of its source slot (R173, R119). -/
theorem mapReport_cpDecode (p : Payload) (j : Fin 6) :
    (mapReport .cp (cpDecode p))[j] = tCp (cpChannel p (#v[3, 2, 0, 1, 4, 5][j])) := by
  have slot (k : Fin 6) : tCp (cpDecode p)[k.val] = tCp (cpChannel p ⟨k.val, by show _ < 7; omega⟩) :=
    congrArg tCp (cpDecode_channel p ⟨k.val, by show _ < 14; omega⟩ k.isLt)
  match j with
  | 0 => exact slot 3
  | 1 => exact slot 2
  | 2 => exact slot 0
  | 3 => exact slot 1
  | 4 => exact slot 4
  | 5 => exact slot 5

/-- Settles O35: a word below 1000 wraps past the clamp, and any other loses the offset. -/
theorem cpAxisFromItsWireWord : Obligations.CpAxisFromItsWireWord := by
  intro p j
  rw [mapReport_cpDecode, tCp_toInt, cpChannel_toNat]
  have hw := (cpWord p (#v[3, 2, 0, 1, 4, 5][j])).isLt
  dsimp only
  split <;> omega

end Sys2Proof.Safety
end

section
/-! PROOFS. The checksums see every single byte: two sums that differ before the rest of the bytes differ after it. -/

namespace Sys2Proof.Safety

open Sys2Proof.Machine

theorem zext16_injective : Function.Injective zext16 := fun a b h => by
  rw [← loByte_zext16 a, h, loByte_zext16]

/-- A fold whose every step is injective in what it carries is so as a whole. -/
theorem foldl_injective {α β : Type} {f : α → β → α} (hf : ∀ b, Function.Injective (f · b)) :
    ∀ l : List β, Function.Injective (l.foldl f ·)
  | [] => Function.injective_id
  | b :: l => (foldl_injective hf l).comp (hf b)

theorem byteSum_ne_of_byte_ne (l r : List Byte) {a b : Byte} (h : a ≠ b) :
    byteSum (l ++ a :: r) ≠ byteSum (l ++ b :: r) := by
  simp only [byteSum, List.foldl_append, List.foldl_cons]
  refine (foldl_injective (fun _ => add_left_injective _) r).ne ?_
  exact ((add_right_injective _).comp zext16_injective).ne h

theorem ibSum_ne_of_byte_ne (l r : List Byte) {a b : Byte} (h : a ≠ b) :
    ibSum (l ++ a :: r) ≠ ibSum (l ++ b :: r) := by
  simp only [ibSum, List.foldl_append, List.foldl_cons]
  refine (foldl_injective (fun _ => sub_left_injective) r).ne ?_
  exact (sub_right_injective.comp zext16_injective).ne h

/-- A byte among the first 14 is among those that the CP checksum sums (R83). -/
theorem cpSum_append_cons {l : List Byte} (hl : l.length < 14) (a : Byte) (r : List Byte) :
    cpSum (l ++ a :: r) = byteSum (l ++ a :: r.take (13 - l.length)) := by
  have hk : 14 - l.length = (13 - l.length) + 1 := by omega
  rw [cpSum, Params.cpSumBytes_eq, List.take_append, List.take_of_length_le hl.le, hk, List.take_succ_cons]

/-- Settles O51: each checksum is the sum of bytes before the changed one, that byte, and an injective rest. -/
theorem checksumsSeeEverySingleByte : Obligations.ChecksumsSeeEverySingleByte := by
  refine ⟨fun l r a b hab => ⟨byteSum_ne_of_byte_ne l r hab, fun hl => ?_, ibSum_ne_of_byte_ne l r hab⟩,
    fun a b c d hne h => ?_⟩
  · rw [cpSum_append_cons hl, cpSum_append_cons hl]
    exact byteSum_ne_of_byte_ne _ _ hab
  · obtain ⟨ha, hb⟩ := cat_inj.mp h
    exact hne.elim (absurd ha) (absurd hb)

end Sys2Proof.Safety
end

section
/-! PROOFS. A run of 0x55 before 0xFC: each one is tried as a new HEADER_A, so the last one pairs with it. -/

namespace Sys2Proof.Safety

open Sys2Proof.Machine

/-- From CP_SCAN_B any number of bytes 0x55 keeps the parser there, and 0xFC starts the payload (R113, R114). -/
theorem scanB_run (n : Nat) {s : State} {rest : List Edge} (hp : s.proto = .cp) (hc : s.cst = 1)
    (hin : s.inputs = feed (List.replicate n 0x55 ++ [0xFC]) ++ rest) :
    ∃ t, runSteps (n + 1) s = .next t ∧ t.cst = 2 ∧ t.ccnt = 0 ∧ t.csum = 0 ∧ t.inputs = rest := by
  induction n generalizing s with
  | zero =>
    have hOk := step_of_cpEffect hp hin (.scanBOk hc rfl)
    exact ⟨_, runSteps_one hOk, rfl, rfl, rfl, congrArg List.tail hin⟩
  | succ n ih =>
    have hResync := step_of_cpEffect hp hin (.scanBResync hc rfl)
    rw [runSteps_succ _ hResync]
    exact ih hp rfl (congrArg List.tail hin)

/-- Settles O56: the first byte leads to CP_SCAN_B, the others are `scanB_run`. -/
theorem cpHeaderSurvivesAnyRunOf55 : Obligations.CpHeaderSurvivesAnyRunOf55 := by
  intro n s rest hp hc hin
  have hSync := step_of_cpEffect hp hin (.scanASync hc rfl)
  rw [runSteps_succ _ hSync]
  exact scanB_run n hp rfl (congrArg List.tail hin)

end Sys2Proof.Safety
end

section
/-! PROOFS. The IBUS rules one by one: which rule an accepted byte runs follows from the row it decodes to, and what a
rule writes from its own equation. -/

namespace Sys2Proof.Safety

open Sys2Proof.Machine

/-! The two outcomes of CHECK_B, from any state (log entry 8). -/

theorem exec_ibCheckB_valid {b : Byte} {s : State} (h : orHigh s.iwcs b = s.iacc) :
    exec (.ibCheckB b) s = .next { quiet s with
      ist := 0
      iacc := 0xFFFF
      iwcs := orHigh s.iwcs b
      fr := s.ich
      report := mapReport s.proto s.ich
      outValid := true } := by
  have hv : ibValid s.iacc s.iwcs b = true := decide_eq_true h
  rw [exec, execIbCheckB, if_pos hv]
  rfl

theorem exec_ibCheckB_invalid {b : Byte} {s : State} (h : orHigh s.iwcs b ≠ s.iacc) :
    exec (.ibCheckB b) s = .next { quiet s with
      ist := 0
      iacc := 0xFFFF
      iwcs := orHigh s.iwcs b
      evCsumErr := true } := by
  have hv : ibValid s.iacc s.iwcs b = false := decide_eq_false h
  rw [exec, execIbCheckB, hv]
  rfl

/-! HDR_A to CHECK_B. -/

/-- Settles O23: the two rows of HDR_A. -/
theorem ibHdrARules : Obligations.IbHdrARules := by
  refine ⟨fun s b h => ⟨fun hb => ?_, fun hb => ?_⟩, fun _ => rfl, fun _ _ => rfl⟩
  · subst hb
    exact runs_of_decodeIb h decodeIb_hdrA_sync
  · exact runs_of_decodeIb h (decodeIb_hdrA_skip hb)

/-- Settles O24: the two rows of HDR_B. -/
theorem ibHdrBRules : Obligations.IbHdrBRules := by
  refine ⟨fun s b h => ⟨fun hb => ?_, fun hb => ?_⟩, fun _ => rfl, fun _ _ => rfl⟩
  · subst hb
    exact runs_of_decodeIb h decodeIb_hdrB_ok
  · exact runs_of_decodeIb h (decodeIb_hdrB_fail hb)

/-- Settles O25: below 14 the slot exists, and the zero-extended byte is all it holds afterwards. -/
theorem ibIntLoRule : Obligations.IbIntLoRule := by
  refine ⟨fun s b h => runs_of_decodeIb h (decodeIb_intLo b), fun b s h => ?_⟩
  rw [exec_ibIntLo, afterLow, ichWrite_of_lt _ _ _ h]
  rfl

/-- Settles O26: below 14 the slot that is read and written exists. -/
theorem ibIntHiRule : Obligations.IbIntHiRule := by
  refine ⟨fun s b h => runs_of_decodeIb h (decodeIb_intHi b), fun b s h => ?_⟩
  rw [exec_ibIntHi, ichWrite_of_lt _ _ _ h, ichRead_of_lt _ _ h]
  rfl

/-- Settles O27: the one row of CHECK_A. -/
theorem ibCheckARule : Obligations.IbCheckARule :=
  ⟨fun _ b h => runs_of_decodeIb h (decodeIb_checkA b), fun _ _ => rfl⟩

/-- Settles O28: the assembled wire checksum is IACC or it is not. -/
theorem ibCheckBRule : Obligations.IbCheckBRule :=
  ⟨fun _ b h => runs_of_decodeIb h (decodeIb_checkB b), fun _ _ h => exec_ibCheckB_valid h,
    fun _ _ h => exec_ibCheckB_invalid h⟩

end Sys2Proof.Safety
end

section
/-! PROOFS. The Channel Mapper: what each axis of a report is, its range, and the six slots that a report reads. -/

namespace Sys2Proof.Safety

open Sys2Proof.Machine

/-- An axis is the transform of its source slot (R170, R173). -/
theorem mapAxes_getElem (t : Word → Word) (f : Frame) (j : Fin 6) :
    (mapAxes t f)[j] = t (#v[f[3], f[2], f[0], f[1], f[4], f[5]][j]) := by
  have hmap : mapAxes t f = #v[f[3], f[2], f[0], f[1], f[4], f[5]].map t := by simp [mapAxes_eq]
  rw [hmap]
  exact Vector.getElem_map t j.isLt

/-- T_IB takes 1500 off, and above 34267 the difference wraps to a negative number (R172). -/
theorem tIb_toInt (v : Word) :
    (tIb v).toInt = if (v.toNat : Int) ≤ 34267 then (v.toNat : Int) - 1500 else (v.toNat : Int) - 1500 - 65536 := by
  have hv := v.isLt
  have hsub : (tIb v).toNat = (65536 - 1500 + v.toNat) % 65536 := BitVec.toNat_sub v _
  rw [BitVec.toInt_eq_toNat_cond, hsub]
  split <;> split <;> omega

/-- Settles O31: every axis is T_CP of its slot. -/
theorem cpAxesAreClampedAndCentred : Obligations.CpAxesAreClampedAndCentred :=
  fun f j => (congrArg BitVec.toInt (mapAxes_getElem tCp f j)).trans (tCp_toInt _)

/-- Settles O32: every axis is T_IB of its slot. -/
theorem ibAxesAreCentredModulo : Obligations.IbAxesAreCentredModulo :=
  fun f j => (congrArg BitVec.toInt (mapAxes_getElem tIb f j)).trans (tIb_toInt _)

/-- Settles O33: a clamped slot is at most 1022, and an IB slot that wraps is below −500. -/
theorem axisRanges : Obligations.AxisRanges := by
  intro f j
  have hcp := cpAxesAreClampedAndCentred f j
  have hib := ibAxesAreCentredModulo f j
  have hv := (#v[f[3], f[2], f[0], f[1], f[4], f[5]][j]).isLt
  refine ⟨by omega, ?_⟩
  dsimp only at hib
  split at hib <;> omega

/-- Whatever the transform, the mapper reads slots 0 to 5 alone (R173, R176). -/
theorem mapAxes_congr (t : Word → Word) {f g : Frame} (h : ∀ k : Fin 14, k.val < 6 → f[k] = g[k]) :
    mapAxes t f = mapAxes t g := by
  have h0 : f[0] = g[0] := h 0 (by decide)
  have h1 : f[1] = g[1] := h 1 (by decide)
  have h2 : f[2] = g[2] := h 2 (by decide)
  have h3 : f[3] = g[3] := h 3 (by decide)
  have h4 : f[4] = g[4] := h 4 (by decide)
  have h5 : f[5] = g[5] := h 5 (by decide)
  rw [mapAxes_eq, mapAxes_eq, h0, h1, h2, h3, h4, h5]

/-- Settles O34: under either protocol the report is a transform of the six slots. -/
theorem reportDependsOnSixSlots : Obligations.ReportDependsOnSixSlots := by
  intro p f g h
  cases p with
  | cp => exact mapAxes_congr tCp h
  | ib => exact mapAxes_congr tIb h

/-- Settles O36: each row's own effect is the mapper's function of its protocol (log entry 5). -/
theorem mapperRowsWriteOnlyTheReport : Obligations.MapperRowsWriteOnlyTheReport :=
  fun _ => ⟨rfl, rfl⟩

end Sys2Proof.Safety
end

section
/-! PROOFS. The events of R190 and the pulses: which pulses can stand together, where the trace and the pulses agree, and
the silence of a framing error. -/

namespace Sys2Proof.Safety

open Sys2Proof.Machine

/-! The pulses that can stand together (R194). -/

/-- A CP rule raises one of OUT_VALID and EV_CSUM_ERR at most, and EV_TEST_MISMATCH with the former alone (R118). -/
theorem CpEffect.pulses_exclude {s t : State} {b : Byte} (h : CpEffect s b t) (p : s.proto = .cp) : Pulses t := by
  obtain ⟨hproto, -⟩ := h.frame
  obtain ⟨hval, herr, htest⟩ := h.pulses
  refine ⟨fun ⟨he, hv⟩ => (herr.mp he).2 (hval.mp hv).2, fun hm => ?_, fun p' => nomatch (hproto.trans p).symm.trans p'⟩
  obtain ⟨c, heq, -⟩ := htest.mp hm
  exact hval.mpr ⟨c, heq⟩

/-- An IB rule raises one of OUT_VALID and EV_CSUM_ERR at most, and never EV_TEST_MISMATCH (R148). -/
theorem IbEffect.pulses_exclude {s t : State} {b : Byte} (h : IbEffect s b t) : Pulses t := by
  obtain ⟨hval, herr, htest⟩ := h.pulses
  exact ⟨fun ⟨he, hv⟩ => (herr.mp he).2 (hval.mp hv).2, by simp [htest], fun _ => htest⟩

/-- The pulse clause of `Inv` holds after any step, whatever the state before it. -/
theorem step_pulses {s t : State} (h : step s = .next t) : Pulses t := by
  cases step_effect h with
  | reset r h => subst h; exact ⟨by simp, by simp, fun _ => rfl⟩
  | idle r v h => subst h; exact ⟨by simp, by simp, fun _ => rfl⟩
  | cp r v p h => exact h.pulses_exclude p
  | ib r v p h => exact h.pulses_exclude

/-- Settles O42: the pulse clause of the invariant, and the reset values of the three pulses. -/
theorem pulsesExcludeEachOther : Obligations.PulsesExcludeEachOther := by
  intro s t h
  obtain ⟨hone, htest, hib⟩ := step_pulses h
  refine ⟨hone, htest, hib, fun r => ?_⟩
  rw [step_reset r] at h
  cases h
  exact ⟨rfl, rfl, rfl⟩

/-! The trace of a frame's last byte (R192, R193). -/

theorem events_cpCsumLo_valid {b : Byte} {s : State} (h : s.csum = cat s.ctrh b) :
    events (.cpCsumLo b) s = if cpTestMismatch s.cbuf then [.testMismatch] else [] :=
  if_pos (decide_eq_true h)

theorem events_cpCsumLo_invalid {b : Byte} {s : State} (h : s.csum ≠ cat s.ctrh b) :
    events (.cpCsumLo b) s = [.csumMismatch] :=
  if_neg (by simpa [cpValid] using h)

theorem events_ibCheckB_valid {b : Byte} {s : State} (h : orHigh s.iwcs b = s.iacc) : events (.ibCheckB b) s = [] :=
  if_pos (decide_eq_true h)

theorem events_ibCheckB_invalid {b : Byte} {s : State} (h : orHigh s.iwcs b ≠ s.iacc) :
    events (.ibCheckB b) s = [.csumMismatch] :=
  if_neg (by simpa [ibValid] using h)

/-- Settles O43: at the two rows of a frame's last byte by the outcome of the checksum; every other parser rule raises no
pulse, and in the trace a framing error at most. -/
theorem eventTraceMatchesThePulses : Obligations.EventTraceMatchesThePulses := by
  intro i s t hi h
  cases i with
  | cpCsumLo b =>
    by_cases hv : s.csum = cat s.ctrh b
    · rw [exec_cpCsumLo_valid hv] at h
      cases h
      rw [events_cpCsumLo_valid hv]
      cases cpTestMismatch s.cbuf <;> simp
    · rw [exec_cpCsumLo_invalid hv] at h
      cases h
      rw [events_cpCsumLo_invalid hv]
      simp
  | ibCheckB b =>
    by_cases hv : orHigh s.iwcs b = s.iacc
    · rw [exec_ibCheckB_valid hv] at h
      cases h
      rw [events_ibCheckB_valid hv]
      simp
    · rw [exec_ibCheckB_invalid hv] at h
      cases h
      rw [events_ibCheckB_invalid hv]
      simp
  | ibBadState st b =>
    rw [exec, execIbBadState] at h
    split at h <;> cases h <;> simp [events]
  | mapCp => cases hi
  | mapIb => cases hi
  | _ => cases h; simp [events]

/-! A framing error (R191). -/

/-- The trace of an accepted byte is that of the CP row it selects. -/
theorem edgeEvents_of_decodeCp {s : State} {st : BitVec 3} {b : Byte} {i : Instr} (h : Accepts .cp st b s)
    (hi : decodeCp st b = i) : edgeEvents s.nextEdge s = events i s := by
  obtain ⟨p, c, r, v, rfl⟩ := h
  rw [← hi, ← decodeW_mkW_cp, ← p, ← c]
  simp [edgeEvents, r, v, State.decodeWord]

/-- The trace of an accepted byte is that of the IB row it selects. -/
theorem edgeEvents_of_decodeIb {s : State} {st : BitVec 3} {b : Byte} {i : Instr} (h : Accepts .ib st b s)
    (hi : decodeIb st b = i) : edgeEvents s.nextEdge s = events i s := by
  obtain ⟨p, c, r, v, rfl⟩ := h
  rw [← hi, ← decodeW_mkW_ib, ← p, ← c]
  simp [edgeEvents, r, v, State.decodeWord]

/-- Settles O44: the five rows that drop or reread a byte in the header search, each with the state it leaves. -/
theorem framingErrorsAreSilent : Obligations.FramingErrorsAreSilent := by
  intro p st b s h hbad
  have ⟨hp, hc, _⟩ := h
  rcases hbad with ⟨rfl, rfl, hb⟩ | ⟨rfl, rfl, hb⟩ | ⟨rfl, rfl, hb⟩ | ⟨rfl, rfl, hb⟩
  · have hrow := decodeCp_scanA_skip hb
    exact ⟨edgeEvents_of_decodeCp h hrow, _, runs_of_decodeCp h hrow, .inl hc, rfl⟩
  · by_cases hA : b = 0x55
    · subst hA
      have hrow := decodeCp_scanB_resync
      exact ⟨edgeEvents_of_decodeCp h hrow, _, runs_of_decodeCp h hrow, .inr (State.activeCode_cp hp), rfl⟩
    · have hrow := decodeCp_scanB_fail hb hA
      exact ⟨edgeEvents_of_decodeCp h hrow, _, runs_of_decodeCp h hrow, .inl (State.activeCode_cp hp), rfl⟩
  · have hrow := decodeIb_hdrA_skip hb
    exact ⟨edgeEvents_of_decodeIb h hrow, _, runs_of_decodeIb h hrow, .inl hc, rfl⟩
  · have hrow := decodeIb_hdrB_fail hb
    exact ⟨edgeEvents_of_decodeIb h hrow, _, runs_of_decodeIb h hrow, .inl (State.activeCode_ib hp), rfl⟩

end Sys2Proof.Safety
end

section
/-! PROOFS. Reset steps, one after the other, and the ports that an edge does not sample. -/

namespace Sys2Proof.Safety

open Sys2Proof.Machine

/-! The step on a listed edge. -/

theorem step_inputs_cons (s : State) (e : Edge) (es : List Edge) :
    step { s with inputs := e :: es } = clockEdge e { s with inputs := es, edge := s.edge + 1 } := rfl

/-- R210: of the state before it a reset step keeps the model's own two fields alone. -/
theorem step_reset_cons {e : Edge} (r : e.rst = true) (s : State) (es : List Edge) :
    step { s with inputs := e :: es } =
      .next { State.resetWith e.protoSel with inputs := es, edge := s.edge + 1 } := by
  rw [step_inputs_cons, clockEdge_reset _ r]
  rfl

/-- Settles O10: the first reset leaves a state from which the others, by induction, act as the last. -/
theorem repeatedResetsActAsTheLast : Obligations.RepeatedResetsActAsTheLast := by
  intro es e s hes r
  refine ⟨?_, step_reset_cons r s []⟩
  induction es generalizing s with
  | nil => exact runSteps_one (step_reset_cons r s [])
  | cons x es ih =>
    obtain ⟨hx, hes⟩ := List.forall_mem_cons.mp hes
    have hedge : s.edge + (es.length + 1) + 1 = s.edge + 1 + es.length + 1 := by omega
    rw [List.cons_append, List.length_cons, runSteps_succ _ (step_reset_cons hx s (es ++ [e])), hedge]
    exact ih { State.resetWith x.protoSel with edge := s.edge + 1 } hes

/-- R210: without a reset `proto_sel` is not sampled. -/
theorem clockEdge_protoSel {e : Edge} (r : e.rst = false) (p : Proto) (s : State) :
    clockEdge { e with protoSel := p } s = clockEdge e s := by
  simp [clockEdge, r]

/-- R218: in a reset `in_valid` and `in_data` are not sampled. -/
theorem clockEdge_inValid_inData {e : Edge} (r : e.rst = true) (v : Bool) (b : Byte) (s : State) :
    clockEdge { e with inValid := v, inData := b } s = clockEdge e s := by
  simp [clockEdge, r]

/-- Settles O12: a step is its edge's effect on the rest of the state, and that reads the sampled ports alone. -/
theorem stepIgnoresUnsampledPorts : Obligations.StepIgnoresUnsampledPorts := by
  refine ⟨fun s e p es r => ?_, fun s e v b es r => ?_⟩
  · rw [step_inputs_cons, step_inputs_cons, clockEdge_protoSel r p]
  · rw [step_inputs_cons, step_inputs_cons, clockEdge_inValid_inData r v b]

/-- Settles O57: the first 0x20 is taken for the header, the second fails it, and 0x40 alone is skipped. -/
theorem ibStrayHeaderLosesTheFrame : Obligations.IbStrayHeaderLosesTheFrame := by
  intro s rest hp hc hin
  have hSync := step_of_ibEffect hp hin (.hdrASync hc rfl)
  have hFail := step_of_ibEffect (s := { quiet s.afterEdge with iacc := 0xFFDF, ist := 1 }) (b := 0x20) hp
    (congrArg List.tail hin) (.hdrBFail rfl (by decide))
  have hSkip := step_of_ibEffect
    (s := { quiet s.afterEdge.afterEdge with iacc := 0xFFDF - zext16 0x20, iidx := 0, ist := 0 }) (b := 0x40) hp
    (congrArg (·.tail.tail) hin) (.hdrASkip rfl (by decide))
  exact ⟨_, by rw [runSteps_succ 2 hSync, runSteps_two hFail hSkip], rfl, congrArg (·.tail.tail.tail) hin, rfl⟩

end Sys2Proof.Safety
end

section
/-! PROOFS. Reports are a frame apart: a lower bound on the edges before a report of a protocol, which is the length of
its frame in the header search and falls by one an edge at most. -/

namespace Sys2Proof.Safety

open Sys2Proof.Machine

/-- The bytes of one frame of a protocol (R10, R80). -/
def frameBytes : Proto → Nat
  | .cp => Params.cpPacketBytes
  | .ib => Params.ibFrameBytes

/-- At least so many edges pass until the parser at work reports, unless a reset comes between: a byte an edge, the
header's bytes too. No bound (0) is claimed from the unused codes. -/
def edgesToReport (s : State) : Nat :=
  if s.activeCode = 0 then frameBytes s.proto else if s.activeCode = 1 then frameBytes s.proto - 1 else bytesLeft s

/-- At least so many edges pass until a report of p: from the other protocol a reset and a frame. -/
def edgesToReportOf (p : Proto) (s : State) : Nat := if s.proto = p then edgesToReport s else frameBytes p + 1

theorem edgesToReport_cp {s : State} (p : s.proto = .cp) : edgesToReport s =
    if s.cst = 0 then 18 else if s.cst = 1 then 17 else if s.cst = 2 then 16 - s.ccnt.toNat
    else if s.cst = 3 then 2 else if s.cst = 4 then 1 else 0 := by
  rw [edgesToReport, State.activeCode_cp p, bytesLeft_cp p, p]
  rfl

theorem edgesToReport_ib {s : State} (p : s.proto = .ib) : edgesToReport s =
    if s.ist = 0 then 32 else if s.ist = 1 then 31 else if s.ist = 2 then 30 - 2 * s.iidx.toNat
    else if s.ist = 3 then 29 - 2 * s.iidx.toNat else if s.ist = 4 then 2 else if s.ist = 5 then 1 else 0 := by
  rw [edgesToReport, State.activeCode_ib p, bytesLeft_ib p, p]
  rfl

theorem edgesToReport_searching {s : State} (h : Searching s) : edgesToReport s = frameBytes s.proto := if_pos h

theorem edgesToReport_le_frameBytes (s : State) : edgesToReport s ≤ frameBytes s.proto := by
  cases p : s.proto with
  | cp => rw [edgesToReport_cp p, frameBytes, Params.cpPacketBytes_eq]; split_ifs <;> omega
  | ib => rw [edgesToReport_ib p, frameBytes, Params.ibFrameBytes_eq]; split_ifs <;> omega

theorem edgesToReportOf_proto (s : State) : edgesToReportOf s.proto s = edgesToReport s := if_pos rfl

theorem edgesToReportOf_le (p : Proto) (s : State) : edgesToReportOf p s ≤ frameBytes p + 1 := by
  unfold edgesToReportOf
  split
  · next h => exact h ▸ Nat.le_succ_of_le (edgesToReport_le_frameBytes s)
  · exact le_rfl

theorem frameBytes_le_edgesToReportOf {s : State} (h : Searching s) (p : Proto) :
    frameBytes p ≤ edgesToReportOf p s := by
  unfold edgesToReportOf
  split
  · next hp => exact (hp ▸ edgesToReport_searching h).ge
  · exact Nat.le_succ _

/-! One byte. -/

section CustomProtocol
variable {s t : State} {b : Byte}

/-- R118: OUT_VALID comes from the packet's last byte alone, and the parser is in CP_SCAN_A after it. -/
theorem CpEffect.of_outValid (h : CpEffect s b t) (v : t.outValid = true) : s.cst = 4 ∧ t.cst = 0 := by
  cases h with
  | emit c _ => exact ⟨c, rfl⟩
  | _ => cases v

/-- A CP byte is one edge nearer to a report at most, whatever CCNT holds. -/
theorem CpEffect.edgesToReport_le (h : CpEffect s b t) (p : s.proto = .cp) :
    edgesToReport s ≤ edgesToReport t + 1 := by
  obtain ⟨hproto, -⟩ := h.frame
  rw [edgesToReport_cp p, edgesToReport_cp (hproto.trans p)]
  cases h with
  | payload c =>
    by_cases h13 : s.ccnt.toNat = 13
    · simp [c, h13]
    · simp [c, h13]
      omega
  | badSync c _ => simp [ne_of_cp_unused c]
  | badSkip c _ => simp [ne_of_cp_unused c]
  | _ c => simp [c]

end CustomProtocol

section Ibus
variable {s t : State} {b : Byte}

/-- R148: OUT_VALID comes from the frame's last byte alone, and the parser is in HDR_A after it. -/
theorem IbEffect.of_outValid (h : IbEffect s b t) (v : t.outValid = true) : s.ist = 5 ∧ t.ist = 0 := by
  cases h with
  | emit c _ => exact ⟨c, rfl⟩
  | _ => cases v

/-- An IB byte is one edge nearer to a report at most, whatever IIDX holds. -/
theorem IbEffect.edgesToReport_le (h : IbEffect s b t) (p : s.proto = .ib) :
    edgesToReport s ≤ edgesToReport t + 1 := by
  obtain ⟨hproto, -⟩ := h.frame
  rw [edgesToReport_ib p, edgesToReport_ib (hproto.trans p)]
  cases h with
  | intLo c => simp [c]; omega
  | intHi c =>
    by_cases h13 : s.iidx.toNat = 13
    · simp [c, h13]
    · simp [c, h13]
      omega
  | badSync c _ => simp [ne_of_ib_unused c]
  | badSkip c _ => simp [ne_of_ib_unused c]
  | _ c => simp [c]

end Ibus

/-! One step and a run. -/

/-- A step that reports accepts a frame's last byte and ends in the header search (R219). -/
theorem step_outValid {s t : State} (h : step s = .next t) (v : t.outValid = true) :
    t.proto = s.proto ∧ edgesToReport s = 1 ∧ Searching t := by
  cases step_effect h with
  | reset r h => subst h; cases v
  | idle r v' h => subst h; cases v
  | cp r v' p h =>
    obtain ⟨hproto, -⟩ := h.frame
    obtain ⟨hlast, hfirst⟩ := h.of_outValid v
    rw [State.afterEdge_cst] at hlast
    exact ⟨hproto, by simp [edgesToReport_cp p, hlast], (State.activeCode_cp (hproto.trans p)).trans hfirst⟩
  | ib r v' p h =>
    obtain ⟨hproto, -⟩ := h.frame
    obtain ⟨hlast, hfirst⟩ := h.of_outValid v
    rw [State.afterEdge_ist] at hlast
    exact ⟨hproto, by simp [edgesToReport_ib p, hlast], (State.activeCode_ib (hproto.trans p)).trans hfirst⟩

theorem searching_of_step_reset {s t : State} (h : step s = .next t) (r : s.nextEdge.rst = true) : Searching t := by
  rw [step_reset r] at h
  cases h
  cases p : s.nextEdge.protoSel <;> rfl

/-- A step without a reset is one edge nearer to a report of its parser at most. -/
theorem step_edgesToReport_le {s t : State} (h : step s = .next t) (r : s.nextEdge.rst = false) :
    t.proto = s.proto ∧ edgesToReport s ≤ edgesToReport t + 1 := by
  cases step_effect h with
  | reset r' h => cases r.symm.trans r'
  | idle r v h => subst h; exact ⟨rfl, Nat.le_succ _⟩
  | cp r v p h => exact ⟨h.frame.1, h.edgesToReport_le p⟩
  | ib r v p h => exact ⟨h.frame.1, h.edgesToReport_le p⟩

/-- Any step is one edge nearer to a report of p at most: a reset leaves a whole frame of p to come. -/
theorem step_edgesToReportOf_le (p : Proto) {s t : State} (h : step s = .next t) :
    edgesToReportOf p s ≤ edgesToReportOf p t + 1 := by
  cases r : s.nextEdge.rst with
  | true =>
    have ht := frameBytes_le_edgesToReportOf (searching_of_step_reset h r) p
    exact (edgesToReportOf_le p s).trans (Nat.succ_le_succ ht)
  | false =>
    obtain ⟨hproto, hle⟩ := step_edgesToReport_le h r
    unfold edgesToReportOf
    rw [hproto]
    split
    · exact hle
    · exact Nat.le_succ _

/-- The bound is one: a run that ends in a report is at least as long. -/
theorem edgesToReportOf_le_of_run {k : Nat} {s t : State} (h : runSteps (k + 1) s = .next t)
    (v : t.outValid = true) : edgesToReportOf t.proto s ≤ k + 1 := by
  induction k generalizing s with
  | zero =>
    obtain ⟨u, hu⟩ := step_answers s
    rw [runSteps_one hu] at h
    cases h
    obtain ⟨hproto, hlast, -⟩ := step_outValid hu v
    rw [hproto, edgesToReportOf_proto, hlast]
  | succ k ih =>
    obtain ⟨u, hu⟩ := step_answers s
    rw [runSteps_succ _ hu] at h
    exact (step_edgesToReportOf_le _ hu).trans (Nat.succ_le_succ (ih h))

/-- From the header search a report of a protocol takes a frame of it. -/
theorem frameBytes_le_of_run {k : Nat} {s t : State} (hs : Searching s) (hk : 0 < k) (h : runSteps k s = .next t)
    (v : t.outValid = true) : frameBytes t.proto ≤ k := by
  obtain ⟨k, rfl⟩ := Nat.exists_eq_succ_of_ne_zero hk.ne'
  exact (frameBytes_le_edgesToReportOf hs _).trans (edgesToReportOf_le_of_run h v)

/-- When the first edge is a reset it takes that edge, which reports nothing, and a frame. -/
theorem frameBytes_lt_of_reset_run {k : Nat} {s t : State} (r : s.nextEdge.rst = true) (hk : 0 < k)
    (h : runSteps k s = .next t) (v : t.outValid = true) : frameBytes t.proto + 1 ≤ k := by
  obtain ⟨k, rfl⟩ := Nat.exists_eq_succ_of_ne_zero hk.ne'
  have hu := step_reset r
  rw [runSteps_succ k hu] at h
  have hk' : 0 < k := by
    refine Nat.pos_of_ne_zero fun h0 => ?_
    subst h0
    cases h
    cases v
  exact Nat.succ_le_succ (frameBytes_le_of_run (searching_of_step_reset hu r) hk' h v)

/-- Settles O55: the end of a reporting step, and the two bounds by the protocol of the report. -/
theorem reportsAreAFrameApart : Obligations.ReportsAreAFrameApart := by
  refine ⟨fun s t h v => ?_, fun s t k hk h v => ⟨fun hs => ?_, fun r => ?_⟩⟩
  · obtain ⟨-, -, ht⟩ := step_outValid h v
    exact ht
  · have hle := frameBytes_le_of_run hs hk h v
    exact ⟨fun p => by rwa [p] at hle, fun p => by rwa [p] at hle⟩
  · have hle := frameBytes_lt_of_reset_run r hk h v
    exact ⟨fun p => by rwa [p] at hle, fun p => by rwa [p] at hle⟩

end Sys2Proof.Safety
end
